-- ==== Sys2Proof/Word.lean ====
section
/-! DEFINITION. The native width W of the datapath registers, and the two word types. -/

namespace Sys2Proof

/-- The native width `W` of A, Q and PQ (R8, R11): the default 64 of decision D1, which meets `W ≥ 27`. [log 1] -/
abbrev W : Nat := 64

/-- A `W`-bit two's-complement register or port value (R12). -/
abbrev Word := BitVec 64

/-- One byte of the operations the host lines up. -/
abbrev Byte := BitVec 8

end Sys2Proof
end

