-- ==== Sys2Proof/Config.lean ====
section
/-! DEFINITION. What an implementation fixes: the record of the delay model's calibrated literals (R10, R110). -/

namespace Sys2Proof

/-- The calibrated literals of the delay model, in one record as R110 asks (decision D27: `OPEN: DelayConfig`, and D2 for
`latchDelay`). The values in force are `Machine.delayConfig`. [log 2] -/
structure DelayConfig where
  /-- `CSD`: supported width to carry-select delay (R113). -/
  csd : List (Nat × Nat)
  /-- the `+1` of `mux_delay` (R112) -/
  muxIncrement : Nat
  /-- the slope 1 of `complement_delay` (R111) -/
  complementSlope : Nat
  /-- `LATCH_DELAY` (R114) -/
  latchDelay : Nat
  deriving DecidableEq, Repr

end Sys2Proof
end

