-- ==== Sys2Proof/Syntax.lean ====
section
/-! DEFINITION. The operations of the block as syntax: one constructor per row of spec/opcode_table.json (R57). -/

namespace Sys2Proof

/-- Which variant of Booth's algorithm: radix-4 ("Booth3", `RADIX_SEL` 0) or radix-8 ("Booth4", `RADIX_SEL` 1) (R9, R55). -/
inductive Radix where
  | r4
  | r8
  deriving DecidableEq, Repr

/-- The operations of R57, then the entries of the two recoding tables. Operands are those that the operation's own rule
lists; an operation without operands reads the registers or the command ports. -/
inductive Instr where
  /-- MUL4 multiplicand, multiplier, width (R86) -/
  | mul4 (multiplicand multiplier : Word) (width : BitVec 8)
  /-- MUL8 multiplicand, multiplier, width (R98) -/
  | mul8 (multiplicand multiplier : Word) (width : BitVec 8)
  /-- SEXT x, n (R62) -/
  | sext (x : Word) (n : Nat)
  /-- REC4 w (R66) -/
  | rec4 (w : BitVec 3)
  /-- REC8 w (R67) -/
  | rec8 (w : BitVec 4)
  /-- PQ.CLR (R74) -/
  | pqClr
  /-- PQ.HIGH (R75) -/
  | pqHigh
  /-- PQ.LOW (R76) -/
  | pqLow
  /-- PQ.SETHI v (R77) -/
  | pqSetHi (v : Int)
  /-- PQ.ACC c (R79) -/
  | pqAcc (c : Int)
  /-- PQ.SAR s (R80) -/
  | pqSar (s : Nat)
  /-- PQ.VALUE (R83) -/
  | pqValue
  /-- Q.LOAD multiplier, n (R81) -/
  | qLoad (multiplier : Word) (n : Nat)
  /-- Q.SAR s (R82) -/
  | qSar (s : Nat)
  /-- DLY.CPL n (R111) -/
  | dlyCpl (n : Nat)
  /-- DLY.MUX selector_bits (R112) -/
  | dlyMux (selectorBits : Nat)
  /-- DLY.CSEL n (R113) -/
  | dlyCsel (n : Nat)
  /-- DLY.LATCH (R114) -/
  | dlyLatch
  /-- DLY.PRE radix, n (R116) -/
  | dlyPre (r : Radix) (n : Nat)
  /-- DLY.ITER radix, n, add (R118) -/
  | dlyIter (r : Radix) (n : Nat) (add : Bool)
  /-- DLY.TOTAL radix, n, add_0 .. add_(m-1) (R120) -/
  | dlyTotal (r : Radix) (n : Nat) (adds : List Bool)
  /-- SEQ.INIT4 (R87) -/
  | seqInit4
  /-- SEQ.ITER4 (R88) -/
  | seqIter4
  /-- SEQ.FINAL4 (R91) -/
  | seqFinal4
  /-- SEQ.INIT8 (R99) -/
  | seqInit8
  /-- SEQ.ITER8 (R100) -/
  | seqIter8
  /-- SEQ.FINAL8 (R102) -/
  | seqFinal8
  /-- The entries of the table REC4, one per window (R57, R66). -/
  | rec4w000
  | rec4w001
  | rec4w010
  | rec4w011
  | rec4w100
  | rec4w101
  | rec4w110
  | rec4w111
  /-- The entries of the table REC8, one per window (R57, R67). -/
  | rec8w0000
  | rec8w0001
  | rec8w0010
  | rec8w0011
  | rec8w0100
  | rec8w0101
  | rec8w0110
  | rec8w0111
  | rec8w1000
  | rec8w1001
  | rec8w1010
  | rec8w1011
  | rec8w1100
  | rec8w1101
  | rec8w1110
  | rec8w1111
  deriving DecidableEq, Repr

end Sys2Proof
end

