-- ==== Sys2Proof/Machine/Radix.lean ====
section
/-! DEFINITION. The constants of the two variants (R9, R108) and the supported widths (R7). -/

namespace Sys2Proof

/-- `k`: the window has `k + 1` bits, and `k` bits are shifted per iteration (`r = k`) (R9). -/
def Radix.k : Radix → Nat
  | .r4 => 2
  | .r8 => 3

/-- `RADIX_SEL` and the register RADIX as a bit (R23, R55). -/
def Radix.code : Radix → BitVec 1
  | .r4 => 0
  | .r8 => 1

/-- `m = ceil((n+1)/r)`, the iteration count (R24, R61). -/
def Radix.iterations (r : Radix) (n : Nat) : Nat := (n + 1 + (r.k - 1)) / r.k

/-- `n mod r`, the amount of the final alignment shift (R61, R91, R102). -/
def Radix.finalShift (r : Radix) (n : Nat) : Nat := n % r.k

/-- `SUPPORTED_WIDTHS` (R7). -/
def supportedWidths : List Nat := [4, 6, 8, 10, 12]

end Sys2Proof
end

