-- ==== Sys2Proof/WellFormed.lean ====
section
/-! DEFINITION. When an operation is well-formed: every operand is a value its operand field can carry. -/

namespace Sys2Proof

/-- A natural operand (a width, a shift amount, a selector width) is carried in 8 bits, as the port WIDTH is (R55). [log 6] -/
def fitsByte (n : Nat) : Bool := n < 256

/-- A signed operand of `W` bits (R12). -/
def fitsWord (v : Int) : Bool := -(2 ^ 63) ≤ v && v < 2 ^ 63

/-- A coefficient of one of the recoders, -4 .. 4 (R9, R53). -/
def isCoefficient (c : Int) : Bool := -4 ≤ c && c ≤ 4

/-- The operands are in the ranges of their fields; DLY.TOTAL has one `add` per iteration (R120). -/
def Instr.wellFormed : Instr → Bool
  | .mul4 _ _ _ => true
  | .mul8 _ _ _ => true
  | .sext _ n => fitsByte n
  | .rec4 _ => true
  | .rec8 _ => true
  | .pqClr => true
  | .pqHigh => true
  | .pqLow => true
  | .pqSetHi v => fitsWord v
  | .pqAcc c => isCoefficient c
  | .pqSar s => fitsByte s
  | .pqValue => true
  | .qLoad _ n => fitsByte n
  | .qSar s => fitsByte s
  | .dlyCpl n => fitsByte n
  | .dlyMux s => fitsByte s
  | .dlyCsel n => fitsByte n
  | .dlyLatch => true
  | .dlyPre _ n => fitsByte n
  | .dlyIter _ n _ => fitsByte n
  | .dlyTotal r n adds => fitsByte n && adds.length == r.iterations n
  | .seqInit4 => true
  | .seqIter4 => true
  | .seqFinal4 => true
  | .seqInit8 => true
  | .seqIter8 => true
  | .seqFinal8 => true
  | .rec4w000 => true
  | .rec4w001 => true
  | .rec4w010 => true
  | .rec4w011 => true
  | .rec4w100 => true
  | .rec4w101 => true
  | .rec4w110 => true
  | .rec4w111 => true
  | .rec8w0000 => true
  | .rec8w0001 => true
  | .rec8w0010 => true
  | .rec8w0011 => true
  | .rec8w0100 => true
  | .rec8w0101 => true
  | .rec8w0110 => true
  | .rec8w0111 => true
  | .rec8w1000 => true
  | .rec8w1001 => true
  | .rec8w1010 => true
  | .rec8w1011 => true
  | .rec8w1100 => true
  | .rec8w1101 => true
  | .rec8w1110 => true
  | .rec8w1111 => true

end Sys2Proof
end

