-- ==== Sys2Proof/Decode.lean ====
section
/-! DEFINITION. The operations as bytes: a decoder, total on any bytes, that rejects by name; after it the encoder.
The first byte of an operation is its UOP code (R57) in bits 4..0 with bits 7..5 zero; a table entry is its window with
the format's tag (WIN3: 0x20, WIN4: 0x40) (R49). The operand bytes after it are the model's own layout. [log 6] -/

namespace Sys2Proof

/-- Why bytes are no operation. -/
inductive DecodeError where
  /-- the bytes end before the operation does -/
  | truncated
  /-- a UOP code of 0x1B to 0x1F: unassigned (R59, U12) -/
  | unassignedCode (b : Byte)
  /-- a first byte that is of none of the formats UOP, WIN3, WIN4 (R49) -/
  | noFormat (b : Byte)
  /-- a bit of an operand byte above the operand's field is set -/
  | reservedBits (b : Byte)
  /-- a pattern that no recoder produces (R53) -/
  | notACoefficient (b : Byte)
  /-- a radix byte that is neither 0 nor 1 (R55) -/
  | notARadix (b : Byte)
  /-- a truth value that is neither 0 nor 1 -/
  | notABoolean (b : Byte)
  deriving DecidableEq, Repr

/-- What decoding answers: an operation with the bytes after it, or a rejection. -/
abbrev Decoded := Except DecodeError (Instr × List Byte)

/-- Eight bytes as a word, the first the least significant. [log 6] -/
def wordOfBytes (b0 b1 b2 b3 b4 b5 b6 b7 : Byte) : Word :=
  b7 ++ b6 ++ b5 ++ b4 ++ b3 ++ b2 ++ b1 ++ b0

/-- A word as eight bytes, the least significant first. [log 6] -/
def wordBytes (x : Word) : List Byte :=
  [x.extractLsb' 0 8, x.extractLsb' 8 8, x.extractLsb' 16 8, x.extractLsb' 24 8,
   x.extractLsb' 32 8, x.extractLsb' 40 8, x.extractLsb' 48 8, x.extractLsb' 56 8]

/-- Reads one operand byte and goes on with it. -/
def readByte (bs : List Byte) (next : Byte → List Byte → Decoded) : Decoded :=
  match bs with
  | b :: rest => next b rest
  | [] => .error .truncated

/-- Reads a natural operand of one byte and goes on with it. -/
def readNat (bs : List Byte) (next : Nat → List Byte → Decoded) : Decoded :=
  readByte bs fun b rest => next b.toNat rest

/-- Reads a word operand of eight bytes and goes on with it. -/
def readWord (bs : List Byte) (next : Word → List Byte → Decoded) : Decoded :=
  match bs with
  | b0 :: b1 :: b2 :: b3 :: b4 :: b5 :: b6 :: b7 :: rest => next (wordOfBytes b0 b1 b2 b3 b4 b5 b6 b7) rest
  | _ => .error .truncated

/-- Reads a radix operand, coded as RADIX_SEL is (R55), and goes on with it. -/
def readRadix (bs : List Byte) (next : Radix → List Byte → Decoded) : Decoded :=
  readByte bs fun b rest =>
    if b = 0 then next .r4 rest else if b = 1 then next .r8 rest else .error (.notARadix b)

/-- Reads a truth value and goes on with it. -/
def readBool (bs : List Byte) (next : Bool → List Byte → Decoded) : Decoded :=
  readByte bs fun b rest =>
    if b = 0 then next false rest else if b = 1 then next true rest else .error (.notABoolean b)

/-- Reads `count` truth values, the first first, and goes on with them. -/
def readBools (count : Nat) (bs : List Byte) (next : List Bool → List Byte → Decoded) : Decoded :=
  match count with
  | 0 => next [] bs
  | c + 1 => readBool bs fun b rest => readBools c rest fun tail rest' => next (b :: tail) rest'

/-- Reads a window of `width` bits (WIN3 or WIN4, R50, R51) in the low bits of a byte and goes on with it. -/
def readWindow (width : Nat) (bs : List Byte) (next : BitVec width → List Byte → Decoded) : Decoded :=
  readByte bs fun b rest =>
    if b.toNat < 2 ^ width then next (b.setWidth width) rest else .error (.reservedBits b)

/-- Reads a coefficient in the 4-bit two's-complement pattern of R53 and goes on with it. -/
def readCoefficient (bs : List Byte) (next : Int → List Byte → Decoded) : Decoded :=
  readByte bs fun b rest =>
    if b.toNat < 16 then
      if isCoefficient (b.setWidth 4).toInt then next (b.setWidth 4).toInt rest else .error (.notACoefficient b)
    else .error (.reservedBits b)

/-- The operation whose first byte is `op`, its operands read from `rest` (R57, R59). -/
def decodeOperands (op : Byte) (rest : List Byte) : Decoded :=
  match op.toNat with
  | 0x00 => readByte rest fun w r => readWord r fun a r => readWord r fun b r => .ok (.mul4 a b w, r)
  | 0x01 => readByte rest fun w r => readWord r fun a r => readWord r fun b r => .ok (.mul8 a b w, r)
  | 0x02 => readWord rest fun x r => readNat r fun n r => .ok (.sext x n, r)
  | 0x03 => readWindow 3 rest fun w r => .ok (.rec4 w, r)
  | 0x04 => readWindow 4 rest fun w r => .ok (.rec8 w, r)
  | 0x05 => .ok (.pqClr, rest)
  | 0x06 => .ok (.pqHigh, rest)
  | 0x07 => .ok (.pqLow, rest)
  | 0x08 => readWord rest fun v r => .ok (.pqSetHi v.toInt, r)
  | 0x09 => readCoefficient rest fun c r => .ok (.pqAcc c, r)
  | 0x0a => readNat rest fun s r => .ok (.pqSar s, r)
  | 0x0b => .ok (.pqValue, rest)
  | 0x0c => readWord rest fun x r => readNat r fun n r => .ok (.qLoad x n, r)
  | 0x0d => readNat rest fun s r => .ok (.qSar s, r)
  | 0x0e => readNat rest fun n r => .ok (.dlyCpl n, r)
  | 0x0f => readNat rest fun s r => .ok (.dlyMux s, r)
  | 0x10 => readNat rest fun n r => .ok (.dlyCsel n, r)
  | 0x11 => .ok (.dlyLatch, rest)
  | 0x12 => readRadix rest fun k r => readNat r fun n r => .ok (.dlyPre k n, r)
  | 0x13 => readRadix rest fun k r => readNat r fun n r => readBool r fun add r => .ok (.dlyIter k n add, r)
  | 0x14 => readRadix rest fun k r => readNat r fun n r =>
      readBools (k.iterations n) r fun adds r => .ok (.dlyTotal k n adds, r)
  | 0x15 => .ok (.seqInit4, rest)
  | 0x16 => .ok (.seqIter4, rest)
  | 0x17 => .ok (.seqFinal4, rest)
  | 0x18 => .ok (.seqInit8, rest)
  | 0x19 => .ok (.seqIter8, rest)
  | 0x1a => .ok (.seqFinal8, rest)
  | 0x20 => .ok (.rec4w000, rest)
  | 0x21 => .ok (.rec4w001, rest)
  | 0x22 => .ok (.rec4w010, rest)
  | 0x23 => .ok (.rec4w011, rest)
  | 0x24 => .ok (.rec4w100, rest)
  | 0x25 => .ok (.rec4w101, rest)
  | 0x26 => .ok (.rec4w110, rest)
  | 0x27 => .ok (.rec4w111, rest)
  | 0x40 => .ok (.rec8w0000, rest)
  | 0x41 => .ok (.rec8w0001, rest)
  | 0x42 => .ok (.rec8w0010, rest)
  | 0x43 => .ok (.rec8w0011, rest)
  | 0x44 => .ok (.rec8w0100, rest)
  | 0x45 => .ok (.rec8w0101, rest)
  | 0x46 => .ok (.rec8w0110, rest)
  | 0x47 => .ok (.rec8w0111, rest)
  | 0x48 => .ok (.rec8w1000, rest)
  | 0x49 => .ok (.rec8w1001, rest)
  | 0x4a => .ok (.rec8w1010, rest)
  | 0x4b => .ok (.rec8w1011, rest)
  | 0x4c => .ok (.rec8w1100, rest)
  | 0x4d => .ok (.rec8w1101, rest)
  | 0x4e => .ok (.rec8w1110, rest)
  | 0x4f => .ok (.rec8w1111, rest)
  | _ => if op.toNat < 0x20 then .error (.unassignedCode op) else .error (.noFormat op)

/-- The first operation in the bytes and the bytes after it, or why there is none. -/
def decode (bs : List Byte) : Decoded :=
  readByte bs decodeOperands

/-- A radix operand's byte (R55). -/
def radixByte (r : Radix) : Byte := r.code.setWidth 8

/-- A truth value's byte. -/
def boolByte (b : Bool) : Byte := if b then 1 else 0

/-- A coefficient's byte: its 4-bit two's-complement pattern (R53), zeros above. -/
def coefficientByte (c : Int) : Byte := (BitVec.ofInt 4 c).setWidth 8

/-- The bytes of a well-formed operation, from the same table. -/
def encode : Instr → List Byte
  | .mul4 a b w => 0x00#8 :: w :: (wordBytes a ++ wordBytes b)
  | .mul8 a b w => 0x01#8 :: w :: (wordBytes a ++ wordBytes b)
  | .sext x n => 0x02#8 :: (wordBytes x ++ [BitVec.ofNat 8 n])
  | .rec4 w => [0x03#8, w.setWidth 8]
  | .rec8 w => [0x04#8, w.setWidth 8]
  | .pqClr => [0x05#8]
  | .pqHigh => [0x06#8]
  | .pqLow => [0x07#8]
  | .pqSetHi v => 0x08#8 :: wordBytes (BitVec.ofInt 64 v)
  | .pqAcc c => [0x09#8, coefficientByte c]
  | .pqSar s => [0x0a#8, BitVec.ofNat 8 s]
  | .pqValue => [0x0b#8]
  | .qLoad x n => 0x0c#8 :: (wordBytes x ++ [BitVec.ofNat 8 n])
  | .qSar s => [0x0d#8, BitVec.ofNat 8 s]
  | .dlyCpl n => [0x0e#8, BitVec.ofNat 8 n]
  | .dlyMux s => [0x0f#8, BitVec.ofNat 8 s]
  | .dlyCsel n => [0x10#8, BitVec.ofNat 8 n]
  | .dlyLatch => [0x11#8]
  | .dlyPre r n => [0x12#8, radixByte r, BitVec.ofNat 8 n]
  | .dlyIter r n add => [0x13#8, radixByte r, BitVec.ofNat 8 n, boolByte add]
  | .dlyTotal r n adds => 0x14#8 :: radixByte r :: BitVec.ofNat 8 n :: adds.map boolByte
  | .seqInit4 => [0x15#8]
  | .seqIter4 => [0x16#8]
  | .seqFinal4 => [0x17#8]
  | .seqInit8 => [0x18#8]
  | .seqIter8 => [0x19#8]
  | .seqFinal8 => [0x1a#8]
  | .rec4w000 => [0x20#8]
  | .rec4w001 => [0x21#8]
  | .rec4w010 => [0x22#8]
  | .rec4w011 => [0x23#8]
  | .rec4w100 => [0x24#8]
  | .rec4w101 => [0x25#8]
  | .rec4w110 => [0x26#8]
  | .rec4w111 => [0x27#8]
  | .rec8w0000 => [0x40#8]
  | .rec8w0001 => [0x41#8]
  | .rec8w0010 => [0x42#8]
  | .rec8w0011 => [0x43#8]
  | .rec8w0100 => [0x44#8]
  | .rec8w0101 => [0x45#8]
  | .rec8w0110 => [0x46#8]
  | .rec8w0111 => [0x47#8]
  | .rec8w1000 => [0x48#8]
  | .rec8w1001 => [0x49#8]
  | .rec8w1010 => [0x4a#8]
  | .rec8w1011 => [0x4b#8]
  | .rec8w1100 => [0x4c#8]
  | .rec8w1101 => [0x4d#8]
  | .rec8w1110 => [0x4e#8]
  | .rec8w1111 => [0x4f#8]

/-- The longest operation is a DLY.TOTAL of width 255 at radix 4: 3 bytes and 128 truth values. -/
def longestOperation : Nat := 131

/-- `count` bytes of a number, the least significant first. -/
def numberBytes (count w : Nat) : List Byte :=
  match count with
  | 0 => []
  | c + 1 => BitVec.ofNat 8 w :: numberBytes c (w / 256)

/-- The bytes of a row of the operation table whose `nbits` bits are `w`. A row of 3 bits is of the format WIN3, a row of 4
bits of the format WIN4 (R49); every other row is read as the bytes of a UOP operation. [log 21] -/
def tableWordBytes (nbits w : Nat) : List Byte :=
  if nbits = 3 then [BitVec.ofNat 8 (0x20 + w % 8)]
  else if nbits = 4 then [BitVec.ofNat 8 (0x40 + w % 16)]
  else numberBytes ((nbits + 7) / 8) w

/-- The operation the decoder reads from a row of the operation table, operand bytes beyond the row's bits all zero. -/
def decodeTableWord (nbits w : Nat) : Option Instr :=
  match decode (tableWordBytes nbits w ++ List.replicate longestOperation 0) with
  | .ok (i, _) => some i
  | .error _ => none

end Sys2Proof
end

