-- ==== Sys2Proof/Machine/State.lean ====
section
/-! DEFINITION. The state of one instance of the block as plain data (R15), the reasons a step can stop, and the state
after reset (R35). -/

namespace Sys2Proof.Machine

/-- The sequencer's position is the pair (PHASE, I) (R22). -/
inductive Phase where
  | idle
  | init
  | iter
  | final
  | done
  | fault
  deriving DecidableEq, Repr

/-- STATUS (R27); its codes are `Status.code` (R56). -/
inductive Status where
  | idle
  | busy
  | done
  | fault
  deriving DecidableEq, Repr

/-- CAUSE: the complete list of fault causes (R27, R132); its codes are `Cause.code` (R56). -/
inductive Cause where
  /-- NONE -/
  | none
  /-- UnsupportedWidth (R123) -/
  | unsupportedWidth
  /-- ContractViolation_OperandRange (R124) -/
  | operandRange
  /-- ContractViolation_SextWidth (R63) -/
  | sextWidth
  deriving DecidableEq, Repr

/-- What a fault records beside its cause (R123, R124, R132: "model may record; not in `CAUSE`"). [log 8] -/
inductive FaultInfo where
  /-- nothing is recorded -/
  | none
  /-- the offending width `n` -/
  | width (n : Nat)
  /-- which of the two operands is not well-formed -/
  | operands (multiplicandBad multiplierBad : Bool)
  deriving DecidableEq, Repr

/-- The CMD record (R55). -/
structure Command where
  /-- RADIX_SEL -/
  radix : Radix
  /-- WIDTH -/
  width : BitVec 8
  /-- MULTIPLICAND -/
  multiplicand : Word
  /-- MULTIPLIER -/
  multiplier : Word
  deriving DecidableEq, Repr

/-- The Result record (R28). -/
structure Result where
  /-- the signed product -/
  product : Int
  iterations : Nat
  additions : Nat
  delay : Nat
  deriving DecidableEq, Repr

/-- Why the machine is stuck: the model has no move. -/
inductive Fault where
  /-- START, or a command, while STATUS is BUSY (R55, R137, D18, U10: "stuck", "the model has no such move"). Raised by the
  fetch and by MUL4 and MUL8. Safe: nothing can be claimed of what follows. [log 15] -/
  | startWhileBusy
  /-- A sequencer step (SEQ.*) is asked for where the precondition of its rule does not hold (R87, R88, R91, R99, R100, R102;
  R22 lets the position advance in one order only). Raised by the six SEQ meanings. Safe. [log 16] -/
  | outsidePhase
  deriving DecidableEq, Repr

/-- Why an operation is not accepted at all. -/
inductive Refusal where
  /-- the operation has no meaning in the model yet; raised by the arms of `exec` alone; safe -/
  | notModelled (mnemonic : String)
  /-- the bytes the host lined up are no operation (R59, U12: "they name no operation and cannot be issued"); raised by the
  fetch; safe -/
  | undecodable (e : DecodeError)
  /-- DLY.TOTAL is given a sequence that does not have one entry per iteration (R120: `add_0 .. add_(m-1)`); raised by
  DLY.TOTAL on operands that are not well-formed, which no decoding gives; safe. [log 11] -/
  | additionsLength
  deriving DecidableEq, Repr

/-- The state of one instance: the tuple of R15, the command interface of R55, the Result record of R28, and the three fields of
the model's own. -/
structure State where
  /-- A, the multiplicand register (R16) -/
  a : Word
  /-- Q, the multiplier copy (R19) -/
  q : Word
  /-- PQ, the double register (R17) -/
  pq : Word
  /-- N, the operand width (R23) -/
  n : Nat
  /-- RADIX (R23) -/
  radix : Radix
  /-- PHASE (R22) -/
  phase : Phase
  /-- I, the iterations already completed (R22) -/
  i : Nat
  /-- M, the iteration count (R24) -/
  m : Nat
  /-- ADDS, the addition counter (R25) -/
  adds : Nat
  /-- DELAY, the delay accumulator (R26) -/
  delay : Nat
  /-- STATUS (R27) -/
  status : Status
  /-- CAUSE (R27) -/
  cause : Cause
  /-- the ports RADIX_SEL, WIDTH, MULTIPLICAND, MULTIPLIER as the host holds them (R55) -/
  cmd : Command
  /-- the port START (R55) -/
  start : Bool
  /-- the Result record, "produced once per invocation; immutable thereafter; owned by the caller" (R28): FINAL produces it,
  nothing else writes it. [log 28] -/
  record : Result
  /-- the model's own: the value the last operation handed back, `none` where it handed none back. [log 7] -/
  ret : Option Int
  /-- the model's own: what the last fault recorded. [log 8] -/
  info : FaultInfo
  /-- the model's own: the operations the host has lined up, the next one first. [log 5] -/
  ops : List Byte
  deriving DecidableEq, Repr

/-- Power-on reset (R35, R138): STATUS, CAUSE and PHASE as stated; every other field, which the spec leaves unspecified, at
the value that log 4 names (DESIGN CHOICE, unsafe). -/
def State.reset : State where
  a := 0
  q := 0
  pq := 0
  n := 0
  radix := .r4
  phase := .idle
  i := 0
  m := 0
  adds := 0
  delay := 0
  status := .idle
  cause := .none
  cmd := { radix := .r4, width := 0, multiplicand := 0, multiplier := 0 }
  start := false
  record := { product := 0, iterations := 0, additions := 0, delay := 0 }
  ret := none
  info := .none
  ops := []

end Sys2Proof.Machine
end

