-- ==== Sys2Proof/Machine/Flags.lean ====
section
/-! DEFINITION. The block has no flags register and no condition codes (R30): this is its one predicate, and the codes of
its status outputs (R56). -/

namespace Sys2Proof.Machine

/-- `c != 0`: whether an iteration adds and counts (R30, R89, R101). -/
def addsMultiple (c : Int) : Bool := c != 0

/-- The code of STATUS (R56). -/
def Status.code : Status → BitVec 2
  | .idle => 0
  | .busy => 1
  | .done => 2
  | .fault => 3

/-- The code of CAUSE (R56, R132). -/
def Cause.code : Cause → BitVec 2
  | .none => 0
  | .unsupportedWidth => 1
  | .operandRange => 2
  | .sextWidth => 3

end Sys2Proof.Machine
end

