-- ==== Sys2Proof/Machine/DelayModel.lean ====
section
/-! DEFINITION. The delay model (R109 to R121): the calibrated literals and the pure functions over them. -/

namespace Sys2Proof.Machine

/-- The literals as printed (R110, R111 to R114; decisions D2 and D27, unaudited). [log 2] -/
def delayConfig : DelayConfig where
  csd := [(4, 8), (6, 10), (8, 12), (10, 12), (12, 14)]
  muxIncrement := 1
  complementSlope := 1
  latchDelay := 3

/-- DLY.CPL: `complement_delay(n)` (R111). -/
def complementDelay (cfg : DelayConfig) (n : Nat) : Nat := cfg.complementSlope * n

/-- DLY.MUX: `mux_delay(selector_bits)` (R112). -/
def muxDelay (cfg : DelayConfig) (selectorBits : Nat) : Nat := selectorBits + cfg.muxIncrement

/-- DLY.CSEL: `CSD[n]`, `none` where the table has no entry (R113, R39). -/
def carrySelectDelay (cfg : DelayConfig) (n : Nat) : Option Nat := cfg.csd.lookup n

/-- DLY.PRE: the one-time precompute cost (R116). -/
def preDelay (cfg : DelayConfig) (r : Radix) (n : Nat) : Option Nat :=
  match r with
  | .r4 => some (complementDelay cfg n)
  | .r8 => (carrySelectDelay cfg n).map fun csd => complementDelay cfg n + csd

/-- The add path of one iteration (R115), `csd` being `CSD[n]`. -/
def addPathDelay (cfg : DelayConfig) (csd : Nat) (add : Bool) : Nat :=
  if add then csd + muxDelay cfg 1 else muxDelay cfg 1

/-- The lookup path of one iteration: `mux_delay(k+1)` (R117). -/
def lookupPathDelay (cfg : DelayConfig) (r : Radix) : Nat := muxDelay cfg (r.k + 1)

/-- DLY.ITER: the delay of one iteration (R118). A width that the table lacks has none, whether or not the iteration adds
(R118 "Exceptions: as rule R113", R132). [log 10] -/
def iterDelay (cfg : DelayConfig) (r : Radix) (n : Nat) (add : Bool) : Option Nat :=
  (carrySelectDelay cfg n).map fun csd => max (addPathDelay cfg csd add) (lookupPathDelay cfg r)

/-- The sum of the iterations' delays. -/
def iterDelays (cfg : DelayConfig) (r : Radix) (n : Nat) : List Bool → Option Nat
  | [] => some 0
  | add :: rest =>
    match iterDelay cfg r n add, iterDelays cfg r n rest with
    | some d, some ds => some (d + ds)
    | _, _ => none

/-- DLY.TOTAL: precompute, the iterations, and a latch delay between each two of them (R119, R120). -/
def totalDelay (cfg : DelayConfig) (r : Radix) (n : Nat) (adds : List Bool) : Option Nat :=
  match preDelay cfg r n, iterDelays cfg r n adds with
  | some pre, some its => some (pre + its + cfg.latchDelay * (adds.length - 1))
  | _, _ => none

end Sys2Proof.Machine
end

