-- ==== Sys2Proof/Machine/Operands.lean ====
section
/-! DEFINITION. Operand forms: sign extension, the windows, the recoding tables, the views of the double register, shifts.
All are stated for any register width `w`, since the spec leaves `W` open (R8). -/

namespace Sys2Proof.Machine

variable {w : Nat}

/-- `sext_n(x)`: the low `n` bits of `x`, bit `n-1` replicated upward (R62). -/
def sext (n : Nat) (x : BitVec w) : BitVec w := (x.setWidth n).signExtend w

/-- The contract of SEXT: `1 ≤ n ≤ W` (R62, R63). -/
def sextWidthOk (w n : Nat) : Bool := 1 ≤ n && n ≤ w

/-- `WellFormed(x, n)` of R124: the port value is the zero-extension or the sign-extension of an `n`-bit pattern. -/
def operandFits (n : Nat) (x : BitVec w) : Bool := x >>> n == 0 || x == sext n x

/-- The eight entries of the Booth3 table, by window (R38, R66; [from general knowledge, not in source], G1). [log 3] -/
def rec4Entries : List Int := [0, 1, 1, 2, -2, -1, -1, 0]

/-- The sixteen entries of the Booth4 table, by window (R38, R67; [from general knowledge, not in source], G1). [log 3] -/
def rec8Entries : List Int := [0, 1, 1, 2, 2, 3, 3, 4, -4, -3, -3, -2, -2, -1, -1, 0]

/-- REC4: the lookup in the Booth3 table; every window has an entry (R39, R66). -/
def rec4Table (win : BitVec 3) : Int := rec4Entries.getD win.toNat 0

/-- REC8: the lookup in the Booth4 table; every window has an entry (R39, R67). -/
def rec8Table (win : BitVec 4) : Int := rec8Entries.getD win.toNat 0

/-- The coefficient that the window at the bottom of the multiplier copy selects (R65): `Q[2:0]` or `Q[3:0]`. -/
def recode (r : Radix) (q : BitVec w) : Int :=
  match r with
  | .r4 => rec4Table (q.extractLsb' 0 3)
  | .r8 => rec8Table (q.extractLsb' 0 4)

/-- `v >>a s`: the arithmetic right shift (R80, R82, R143). -/
def sar (s : Nat) (v : BitVec w) : BitVec w := v.sshiftRight s

/-- PQ.HIGH: `PQ >>a n` as a signed integer (R75). -/
def highHalf (n : Nat) (pq : BitVec w) : Int := pq.toInt >>> n

/-- PQ.LOW: `PQ[n-1:0]` as an unsigned integer (R76). -/
def lowHalf (n : Nat) (pq : BitVec w) : Nat := pq.toNat % 2 ^ n

/-- PQ.SETHI: the register with `v` in its high half, the low half kept: `wrap_W(v * 2^n + low)` (R77). -/
def setHigh (n : Nat) (v : Int) (pq : BitVec w) : BitVec w := BitVec.ofInt w (v * 2 ^ n + lowHalf n pq)

/-- PQ.ACC: the register with the multiple `c * A` added into its high half (R79). -/
def accumulate (n : Nat) (c : Int) (a pq : BitVec w) : BitVec w := setHigh n (highHalf n pq + c * a.toInt) pq

/-- Q.LOAD: `sext_n(MULTIPLIER) << 1`, the implicit 0 below bit 0 (R52, R81). -/
def loadMultiplier (n : Nat) (x : BitVec w) : BitVec w := BitVec.ofInt w (2 * (sext n x).toInt)

end Sys2Proof.Machine
end

