-- ==== Sys2Proof/Machine/Ops.lean ====
section
/-! DEFINITION. The named operations over the state: handing a value back, writing a register, taking a fault, accepting a
command, and the three steps of the sequencer, each written once for both radices (R73, R108). -/

namespace Sys2Proof.Machine

/-! ### Values handed back, register writes -/

/-- The operation hands `v` back and writes nothing else. [log 7] -/
def State.returns (s : State) (v : Int) : State := { s with ret := some v }

/-- PQ is written; nothing is handed back. -/
def State.writePq (s : State) (v : Word) : State := { s with pq := v, ret := none }

/-- Q is written; nothing is handed back. -/
def State.writeQ (s : State) (v : Word) : State := { s with q := v, ret := none }

/-! ### Faults (R127) -/

/-- `raise F(info)` (R127): STATUS, CAUSE and PHASE are written, no value is handed back, and no other register changes. The
return from a fault is the next command's INIT, which overwrites all three (R129). [log 9] -/
def raise (c : Cause) (info : FaultInfo) (s : State) : State :=
  { s with status := .fault, cause := c, phase := .fault, info := info, ret := none }

/-- Hands back a natural, or raises UnsupportedWidth where there is none (R113, R132). -/
def returnsDelay (n : Nat) (d : Option Nat) (s : State) : State :=
  match d with
  | some v => s.returns v
  | none => raise .unsupportedWidth (.width n) s

/-! ### Result (R28, R56) -/

/-- The fields of the Result as they are read from the registers (R28). -/
def State.readResult (s : State) : Result :=
  { product := s.pq.toInt, iterations := s.m, additions := s.adds, delay := s.delay }

/-- The Result is produced: its fields are read from the registers into the record, and STATUS and PHASE are DONE (R27, R28).
[log 28] -/
def State.produce (s : State) : State := { s with record := s.readResult, phase := .done, status := .done, ret := none }

/-- The Result, readable only while STATUS is DONE, and then the record as FINAL produced it (R28, R36). -/
def State.result (s : State) : Option Result := if s.status = .done then some s.record else none

/-- The outputs to the host (R56); the four value fields are the Result record (R28). -/
structure Outputs where
  status : BitVec 2
  cause : BitVec 2
  result : Option Result
  deriving DecidableEq, Repr

/-- The outputs in a state (R56). -/
def State.outputs (s : State) : Outputs := { status := s.status.code, cause := s.cause.code, result := s.result }

/-! ### The datapath of one multiplication, at any register width (R8) -/

/-- A, Q, PQ and the two counters. -/
structure Datapath (w : Nat) where
  a : BitVec w
  q : BitVec w
  pq : BitVec w
  adds : Nat
  delay : Nat
  deriving DecidableEq, Repr

/-- The register writes of INIT: operands sign-extended, the implicit 0, the double register zeroed, the precompute delay
(R86, R87, R98, R99). -/
def Datapath.load {w : Nat} (cfg : DelayConfig) (r : Radix) (n : Nat) (multiplicand multiplier : BitVec w) :
    Option (Datapath w) :=
  (preDelay cfg r n).map fun pre =>
    { a := sext n multiplicand, q := loadMultiplier n multiplier, pq := 0, adds := 0, delay := pre }

/-- Sub-steps a to e of one iteration, in this order (R88, R100, R142); `last` says that it is iteration `M-1`, after which
no latch delay is paid (R119). -/
def Datapath.iterate {w : Nat} (cfg : DelayConfig) (r : Radix) (n : Nat) (last : Bool) (d : Datapath w) :
    Option (Datapath w) :=
  let shifted := sar r.k d.pq
  let c := recode r d.q
  let add := addsMultiple c
  let pq := if add then accumulate n c d.a shifted else shifted
  let adds := if add then d.adds + 1 else d.adds
  let latch := if last then 0 else cfg.latchDelay
  (iterDelay cfg r n add).map fun t =>
    { a := d.a, q := sar r.k d.q, pq := pq, adds := adds, delay := d.delay + t + latch }

/-- The checks of INIT in their order: the width, then the operands (R87, R99, R123 to R126). -/
def checkCommand {w : Nat} (n : Nat) (multiplicand multiplier : BitVec w) : Option (Cause × FaultInfo) :=
  if n ∈ supportedWidths then
    if operandFits n multiplicand && operandFits n multiplier then none
    else some (.operandRange, .operands (!operandFits n multiplicand) (!operandFits n multiplier))
  else some (.unsupportedWidth, .width n)

/-! ### The sequencer's steps on the state -/

/-- The datapath in a state. -/
def State.datapath (s : State) : Datapath 64 := { a := s.a, q := s.q, pq := s.pq, adds := s.adds, delay := s.delay }

/-- The state with the datapath's registers written; nothing is handed back. -/
def State.withDatapath (s : State) (d : Datapath 64) : State :=
  { s with a := d.a, q := d.q, pq := d.pq, adds := d.adds, delay := d.delay, ret := none }

/-- A command on the ports is accepted (R22 IDLE to INIT, R55, R129): START is taken and the position is INIT. [log 14] -/
def State.accept (s : State) : State := { s with phase := .init, start := false }

/-- The host puts a command on the ports (R55). [log 19] -/
def State.drive (s : State) (c : Command) : State := { s with cmd := c }

/-- The control registers as INIT leaves them when it does not fault (R87, R99): the first iteration is next. -/
def State.begin (s : State) (r : Radix) (n : Nat) : State :=
  { s with
    n := n, radix := r, m := r.iterations n, i := 0, phase := .iter, status := .busy, cause := .none, info := .none }

/-- INIT (R87, R99): the checks, then the register writes; a fault writes nothing else (R127). -/
def initStep (r : Radix) (s : State) : State :=
  match checkCommand s.cmd.width.toNat s.cmd.multiplicand s.cmd.multiplier with
  | some (c, info) => raise c info s
  | none =>
    match Datapath.load delayConfig r s.cmd.width.toNat s.cmd.multiplicand s.cmd.multiplier with
    | some d => (s.withDatapath d).begin r s.cmd.width.toNat
    | none => raise .unsupportedWidth (.width s.cmd.width.toNat) s

/-- The position after an iteration: `I <- I + 1; if I = M then PHASE <- FINAL` (R88, R100). -/
def State.advance (s : State) : State :=
  { s with i := s.i + 1, phase := if s.i + 1 = s.m then .final else s.phase }

/-- ITER (R88, R100). A width outside the delay table, which no INIT leaves in N, raises UnsupportedWidth (R118). [log 18] -/
def iterStep (r : Radix) (s : State) : State :=
  match s.datapath.iterate delayConfig r s.n (s.i + 1 = s.m) with
  | some d => (s.withDatapath d).advance
  | none => raise .unsupportedWidth (.width s.n) s

/-- FINAL (R91, R102): the alignment shift by `n mod r`, then the Result is produced and the block is DONE. -/
def finalStep (r : Radix) (s : State) : State := (s.writePq (sar (r.finalShift s.n) s.pq)).produce

/-- `count` iterations. -/
def iterSteps (r : Radix) (count : Nat) (s : State) : State :=
  match count with
  | 0 => s
  | c + 1 => iterSteps r c (iterStep r s)

/-- A whole command (R86, R98): INIT; unless it faults, exactly M iterations; FINAL. [log 19] -/
def runCommand (c : Command) (s : State) : State :=
  let s0 := initStep c.radix ((s.drive c).accept)
  if s0.status = .fault then s0 else finalStep c.radix (iterSteps c.radix s0.m s0)

end Sys2Proof.Machine
end

