-- ==== Sys2Proof/Machine/Accumulator.lean ====
section
/-! DEFINITION. The double-register accumulator: PQ.CLR, PQ.HIGH, PQ.LOW, PQ.SETHI, PQ.ACC, PQ.VALUE (R74 to R79, R83). The
halves are those of the current width N (R18). -/

namespace Sys2Proof.Machine

/-- PQ.CLR (R74). -/
def execPqClr (s : State) : Host.Outcome State Fault Refusal := .next (s.writePq 0)

/-- PQ.HIGH (R75). -/
def execPqHigh (s : State) : Host.Outcome State Fault Refusal := .next (s.returns (highHalf s.n s.pq))

/-- PQ.LOW (R76). -/
def execPqLow (s : State) : Host.Outcome State Fault Refusal := .next (s.returns (lowHalf s.n s.pq))

/-- PQ.SETHI v (R77). -/
def execPqSetHi (v : Int) (s : State) : Host.Outcome State Fault Refusal := .next (s.writePq (setHigh s.n v s.pq))

/-- PQ.ACC c (R79); ADDS is the sequencer's to count, not this operation's. -/
def execPqAcc (c : Int) (s : State) : Host.Outcome State Fault Refusal :=
  .next (s.writePq (accumulate s.n c s.a s.pq))

/-- PQ.VALUE (R83). -/
def execPqValue (s : State) : Host.Outcome State Fault Refusal := .next (s.returns s.pq.toInt)

end Sys2Proof.Machine
end

