-- ==== Sys2Proof/Machine/Commands.lean ====
section
/-! DEFINITION. MUL4 and MUL8: the two commands, each run whole (R85, R86, R98). -/

namespace Sys2Proof.Machine

/-- A command is accepted only while STATUS is not BUSY (R55, R137; U10: no such move otherwise). [log 15, log 19] -/
def issueCommand (c : Command) (s : State) : Host.Outcome State Fault Refusal :=
  if s.status = .busy then .fault .startWhileBusy else .next (runCommand c s)

/-- MUL4 (R86). -/
def execMul4 (multiplicand multiplier : Word) (width : BitVec 8) (s : State) : Host.Outcome State Fault Refusal :=
  issueCommand { radix := .r4, width := width, multiplicand := multiplicand, multiplier := multiplier } s

/-- MUL8 (R98). -/
def execMul8 (multiplicand multiplier : Word) (width : BitVec 8) (s : State) : Host.Outcome State Fault Refusal :=
  issueCommand { radix := .r8, width := width, multiplicand := multiplicand, multiplier := multiplier } s

end Sys2Proof.Machine
end

