-- ==== Sys2Proof/Machine/DelayOps.lean ====
section
/-! DEFINITION. The delay functions as operations on their own: DLY.* (R111 to R120). They hand a natural back; where the
table has no entry they raise UnsupportedWidth (R113, R132). -/

namespace Sys2Proof.Machine

/-- DLY.CPL n (R111). -/
def execDlyCpl (n : Nat) (s : State) : Host.Outcome State Fault Refusal :=
  .next (s.returns (complementDelay delayConfig n))

/-- DLY.MUX selector_bits (R112). -/
def execDlyMux (selectorBits : Nat) (s : State) : Host.Outcome State Fault Refusal :=
  .next (s.returns (muxDelay delayConfig selectorBits))

/-- DLY.CSEL n (R113). -/
def execDlyCsel (n : Nat) (s : State) : Host.Outcome State Fault Refusal :=
  .next (returnsDelay n (carrySelectDelay delayConfig n) s)

/-- DLY.LATCH (R114). -/
def execDlyLatch (s : State) : Host.Outcome State Fault Refusal := .next (s.returns delayConfig.latchDelay)

/-- DLY.PRE radix, n (R116). -/
def execDlyPre (r : Radix) (n : Nat) (s : State) : Host.Outcome State Fault Refusal :=
  .next (returnsDelay n (preDelay delayConfig r n) s)

/-- DLY.ITER radix, n, add (R118). [log 10] -/
def execDlyIter (r : Radix) (n : Nat) (add : Bool) (s : State) : Host.Outcome State Fault Refusal :=
  .next (returnsDelay n (iterDelay delayConfig r n add) s)

/-- DLY.TOTAL radix, n, add_0 .. add_(m-1) (R120); a sequence of another length is no operand of it. [log 11] -/
def execDlyTotal (r : Radix) (n : Nat) (adds : List Bool) (s : State) : Host.Outcome State Fault Refusal :=
  if adds.length = r.iterations n then .next (returnsDelay n (totalDelay delayConfig r n adds) s)
  else .refused .additionsLength

end Sys2Proof.Machine
end

