-- ==== Sys2Proof/Machine/Recoders.lean ====
section
/-! DEFINITION. REC4 and REC8 (R66, R67), and the reading of each entry of their tables (R57). They hand the coefficient back
and write nothing else (R70). -/

namespace Sys2Proof.Machine

/-- REC4 w (R66). -/
def execRec4 (win : BitVec 3) (s : State) : Host.Outcome State Fault Refusal :=
  .next (s.returns (rec4Table win))

/-- REC8 w (R67). -/
def execRec8 (win : BitVec 4) (s : State) : Host.Outcome State Fault Refusal :=
  .next (s.returns (rec8Table win))

/-- The entry of REC4 at window 000 (R66). -/
def execRec4w000 (s : State) : Host.Outcome State Fault Refusal := .next (s.returns (rec4Table 0b000#3))

/-- The entry of REC4 at window 001 (R66). -/
def execRec4w001 (s : State) : Host.Outcome State Fault Refusal := .next (s.returns (rec4Table 0b001#3))

/-- The entry of REC4 at window 010 (R66). -/
def execRec4w010 (s : State) : Host.Outcome State Fault Refusal := .next (s.returns (rec4Table 0b010#3))

/-- The entry of REC4 at window 011 (R66). -/
def execRec4w011 (s : State) : Host.Outcome State Fault Refusal := .next (s.returns (rec4Table 0b011#3))

/-- The entry of REC4 at window 100 (R66). -/
def execRec4w100 (s : State) : Host.Outcome State Fault Refusal := .next (s.returns (rec4Table 0b100#3))

/-- The entry of REC4 at window 101 (R66). -/
def execRec4w101 (s : State) : Host.Outcome State Fault Refusal := .next (s.returns (rec4Table 0b101#3))

/-- The entry of REC4 at window 110 (R66). -/
def execRec4w110 (s : State) : Host.Outcome State Fault Refusal := .next (s.returns (rec4Table 0b110#3))

/-- The entry of REC4 at window 111 (R66). -/
def execRec4w111 (s : State) : Host.Outcome State Fault Refusal := .next (s.returns (rec4Table 0b111#3))

/-- The entry of REC8 at window 0000 (R67). -/
def execRec8w0000 (s : State) : Host.Outcome State Fault Refusal := .next (s.returns (rec8Table 0b0000#4))

/-- The entry of REC8 at window 0001 (R67). -/
def execRec8w0001 (s : State) : Host.Outcome State Fault Refusal := .next (s.returns (rec8Table 0b0001#4))

/-- The entry of REC8 at window 0010 (R67). -/
def execRec8w0010 (s : State) : Host.Outcome State Fault Refusal := .next (s.returns (rec8Table 0b0010#4))

/-- The entry of REC8 at window 0011 (R67). -/
def execRec8w0011 (s : State) : Host.Outcome State Fault Refusal := .next (s.returns (rec8Table 0b0011#4))

/-- The entry of REC8 at window 0100 (R67). -/
def execRec8w0100 (s : State) : Host.Outcome State Fault Refusal := .next (s.returns (rec8Table 0b0100#4))

/-- The entry of REC8 at window 0101 (R67). -/
def execRec8w0101 (s : State) : Host.Outcome State Fault Refusal := .next (s.returns (rec8Table 0b0101#4))

/-- The entry of REC8 at window 0110 (R67). -/
def execRec8w0110 (s : State) : Host.Outcome State Fault Refusal := .next (s.returns (rec8Table 0b0110#4))

/-- The entry of REC8 at window 0111 (R67). -/
def execRec8w0111 (s : State) : Host.Outcome State Fault Refusal := .next (s.returns (rec8Table 0b0111#4))

/-- The entry of REC8 at window 1000 (R67). -/
def execRec8w1000 (s : State) : Host.Outcome State Fault Refusal := .next (s.returns (rec8Table 0b1000#4))

/-- The entry of REC8 at window 1001 (R67). -/
def execRec8w1001 (s : State) : Host.Outcome State Fault Refusal := .next (s.returns (rec8Table 0b1001#4))

/-- The entry of REC8 at window 1010 (R67). -/
def execRec8w1010 (s : State) : Host.Outcome State Fault Refusal := .next (s.returns (rec8Table 0b1010#4))

/-- The entry of REC8 at window 1011 (R67). -/
def execRec8w1011 (s : State) : Host.Outcome State Fault Refusal := .next (s.returns (rec8Table 0b1011#4))

/-- The entry of REC8 at window 1100 (R67). -/
def execRec8w1100 (s : State) : Host.Outcome State Fault Refusal := .next (s.returns (rec8Table 0b1100#4))

/-- The entry of REC8 at window 1101 (R67). -/
def execRec8w1101 (s : State) : Host.Outcome State Fault Refusal := .next (s.returns (rec8Table 0b1101#4))

/-- The entry of REC8 at window 1110 (R67). -/
def execRec8w1110 (s : State) : Host.Outcome State Fault Refusal := .next (s.returns (rec8Table 0b1110#4))

/-- The entry of REC8 at window 1111 (R67). -/
def execRec8w1111 (s : State) : Host.Outcome State Fault Refusal := .next (s.returns (rec8Table 0b1111#4))

end Sys2Proof.Machine
end

