-- ==== Sys2Proof/Machine/Sequencer.lean ====
section
/-! DEFINITION. The sequencer's steps: SEQ.INIT4, SEQ.ITER4, SEQ.FINAL4 (R87, R88, R91) and SEQ.INIT8, SEQ.ITER8, SEQ.FINAL8
(R99, R100, R102), each with the precondition of its rule. [log 16] -/

namespace Sys2Proof.Machine

/-- INIT where a command of radix `r` was accepted and PHASE is INIT (R87, R99). -/
def seqInit (r : Radix) (s : State) : Host.Outcome State Fault Refusal :=
  if s.phase = .init ∧ s.cmd.radix = r then .next (initStep r s) else .fault .outsidePhase

/-- ITER where PHASE is ITER and `I < M` (R88, R100). -/
def seqIter (r : Radix) (s : State) : Host.Outcome State Fault Refusal :=
  if s.phase = .iter ∧ s.i < s.m then .next (iterStep r s) else .fault .outsidePhase

/-- FINAL where PHASE is FINAL (R91, R102). -/
def seqFinal (r : Radix) (s : State) : Host.Outcome State Fault Refusal :=
  if s.phase = .final then .next (finalStep r s) else .fault .outsidePhase

/-- SEQ.INIT4 (R87). -/
def execSeqInit4 (s : State) : Host.Outcome State Fault Refusal := seqInit .r4 s

/-- SEQ.ITER4 (R88). -/
def execSeqIter4 (s : State) : Host.Outcome State Fault Refusal := seqIter .r4 s

/-- SEQ.FINAL4 (R91). -/
def execSeqFinal4 (s : State) : Host.Outcome State Fault Refusal := seqFinal .r4 s

/-- SEQ.INIT8 (R99). -/
def execSeqInit8 (s : State) : Host.Outcome State Fault Refusal := seqInit .r8 s

/-- SEQ.ITER8 (R100). -/
def execSeqIter8 (s : State) : Host.Outcome State Fault Refusal := seqIter .r8 s

/-- SEQ.FINAL8 (R102). -/
def execSeqFinal8 (s : State) : Host.Outcome State Fault Refusal := seqFinal .r8 s

end Sys2Proof.Machine
end

