-- ==== Sys2Proof/Machine/Shifter.lean ====
section
/-! DEFINITION. The partial-product shifter and the multiplier copy: PQ.SAR, Q.LOAD, Q.SAR (R80 to R82). -/

namespace Sys2Proof.Machine

/-- PQ.SAR s (R80). [log 17] -/
def execPqSar (amount : Nat) (s : State) : Host.Outcome State Fault Refusal := .next (s.writePq (sar amount s.pq))

/-- Q.LOAD multiplier, n (R81): on its own it takes both as operands of the operation, and neither from the MULTIPLIER port nor
from N (DESIGN CHOICE, log 27); on its own a width outside SEXT's contract raises what SEXT raises (R63). [log 12] -/
def execQLoad (multiplier : Word) (n : Nat) (s : State) : Host.Outcome State Fault Refusal :=
  if sextWidthOk W n then .next (s.writeQ (loadMultiplier n multiplier)) else .next (raise .sextWidth (.width n) s)

/-- Q.SAR s (R82). [log 17] -/
def execQSar (amount : Nat) (s : State) : Host.Outcome State Fault Refusal := .next (s.writeQ (sar amount s.q))

end Sys2Proof.Machine
end

