-- ==== Sys2Proof/Machine/SignExtension.lean ====
section
/-! DEFINITION. SEXT (R62, R63). -/

namespace Sys2Proof.Machine

/-- SEXT x, n: hands back `sext_n(x)`; outside `1 ≤ n ≤ W` raises ContractViolation_SextWidth (R63). -/
def execSext (x : Word) (n : Nat) (s : State) : Host.Outcome State Fault Refusal :=
  if sextWidthOk W n then .next (s.returns (sext n x).toInt) else .next (raise .sextWidth (.width n) s)

end Sys2Proof.Machine
end

