-- ==== Sys2Proof/Machine/Dispatch.lean ====
section
/-! DEFINITION. The dispatch: one arm per operation, one direct call of its meaning (R57). -/

namespace Sys2Proof.Machine

def exec (i : Instr) (s : State) : Host.Outcome State Fault Refusal :=
  match i with
  | .mul4 a b w => Sys2Proof.Machine.execMul4 a b w s
  | .mul8 a b w => Sys2Proof.Machine.execMul8 a b w s
  | .sext x n => Sys2Proof.Machine.execSext x n s
  | .rec4 w => Sys2Proof.Machine.execRec4 w s
  | .rec8 w => Sys2Proof.Machine.execRec8 w s
  | .pqClr => Sys2Proof.Machine.execPqClr s
  | .pqHigh => Sys2Proof.Machine.execPqHigh s
  | .pqLow => Sys2Proof.Machine.execPqLow s
  | .pqSetHi v => Sys2Proof.Machine.execPqSetHi v s
  | .pqAcc c => Sys2Proof.Machine.execPqAcc c s
  | .pqSar k => Sys2Proof.Machine.execPqSar k s
  | .pqValue => Sys2Proof.Machine.execPqValue s
  | .qLoad x n => Sys2Proof.Machine.execQLoad x n s
  | .qSar k => Sys2Proof.Machine.execQSar k s
  | .dlyCpl n => Sys2Proof.Machine.execDlyCpl n s
  | .dlyMux k => Sys2Proof.Machine.execDlyMux k s
  | .dlyCsel n => Sys2Proof.Machine.execDlyCsel n s
  | .dlyLatch => Sys2Proof.Machine.execDlyLatch s
  | .dlyPre r n => Sys2Proof.Machine.execDlyPre r n s
  | .dlyIter r n add => Sys2Proof.Machine.execDlyIter r n add s
  | .dlyTotal r n adds => Sys2Proof.Machine.execDlyTotal r n adds s
  | .seqInit4 => Sys2Proof.Machine.execSeqInit4 s
  | .seqIter4 => Sys2Proof.Machine.execSeqIter4 s
  | .seqFinal4 => Sys2Proof.Machine.execSeqFinal4 s
  | .seqInit8 => Sys2Proof.Machine.execSeqInit8 s
  | .seqIter8 => Sys2Proof.Machine.execSeqIter8 s
  | .seqFinal8 => Sys2Proof.Machine.execSeqFinal8 s
  | .rec4w000 => Sys2Proof.Machine.execRec4w000 s
  | .rec4w001 => Sys2Proof.Machine.execRec4w001 s
  | .rec4w010 => Sys2Proof.Machine.execRec4w010 s
  | .rec4w011 => Sys2Proof.Machine.execRec4w011 s
  | .rec4w100 => Sys2Proof.Machine.execRec4w100 s
  | .rec4w101 => Sys2Proof.Machine.execRec4w101 s
  | .rec4w110 => Sys2Proof.Machine.execRec4w110 s
  | .rec4w111 => Sys2Proof.Machine.execRec4w111 s
  | .rec8w0000 => Sys2Proof.Machine.execRec8w0000 s
  | .rec8w0001 => Sys2Proof.Machine.execRec8w0001 s
  | .rec8w0010 => Sys2Proof.Machine.execRec8w0010 s
  | .rec8w0011 => Sys2Proof.Machine.execRec8w0011 s
  | .rec8w0100 => Sys2Proof.Machine.execRec8w0100 s
  | .rec8w0101 => Sys2Proof.Machine.execRec8w0101 s
  | .rec8w0110 => Sys2Proof.Machine.execRec8w0110 s
  | .rec8w0111 => Sys2Proof.Machine.execRec8w0111 s
  | .rec8w1000 => Sys2Proof.Machine.execRec8w1000 s
  | .rec8w1001 => Sys2Proof.Machine.execRec8w1001 s
  | .rec8w1010 => Sys2Proof.Machine.execRec8w1010 s
  | .rec8w1011 => Sys2Proof.Machine.execRec8w1011 s
  | .rec8w1100 => Sys2Proof.Machine.execRec8w1100 s
  | .rec8w1101 => Sys2Proof.Machine.execRec8w1101 s
  | .rec8w1110 => Sys2Proof.Machine.execRec8w1110 s
  | .rec8w1111 => Sys2Proof.Machine.execRec8w1111 s

end Sys2Proof.Machine
end

