-- ==== Sys2Proof/Machine/Fetch.lean ====
section
/-! DEFINITION. What the machine does next. The block fetches no instructions (R47): the sequencer's position selects its
step (R22), START selects the command on the ports (R55), and a block at rest takes the next operation that the host has
lined up. [log 5, log 14] -/

namespace Sys2Proof.Machine

/-- What there is to do next. -/
inductive Fetched where
  /-- nothing: the block is at rest and the host asks for nothing -/
  | wait
  /-- the model has no move -/
  | stuck (r : Fault)
  /-- the bytes lined up are no operation -/
  | refused (r : Refusal)
  /-- run `i` in `s` -/
  | run (i : Instr) (s : State)
  deriving DecidableEq, Repr

/-- INIT of the radix the command selects (R87, R99). -/
def initInstr : Radix → Instr
  | .r4 => .seqInit4
  | .r8 => .seqInit8

/-- ITER of the radix in RADIX (R88, R100). -/
def iterInstr : Radix → Instr
  | .r4 => .seqIter4
  | .r8 => .seqIter8

/-- FINAL of the radix in RADIX (R91, R102). -/
def finalInstr : Radix → Instr
  | .r4 => .seqFinal4
  | .r8 => .seqFinal8

/-- The next operation lined up by the host, taken from the front. [log 5, log 22] -/
def fetchOp (s : State) : Fetched :=
  if s.ops = [] then .wait
  else
    match decode s.ops with
    | .ok (i, rest) => .run i { s with ops := rest }
    | .error e => .refused (.undecodable e)

/-- START comes first (R55; while BUSY there is no such move, U10); then the sequencer's own step, by PHASE (R22); at rest,
the host's next operation. [log 14, log 15] -/
def fetch (s : State) : Fetched :=
  if s.start then
    if s.status = .busy then .stuck .startWhileBusy else .run (initInstr s.cmd.radix) s.accept
  else
    match s.phase with
    | .init => .run (initInstr s.cmd.radix) s
    | .iter => .run (iterInstr s.radix) s
    | .final => .run (finalInstr s.radix) s
    | .idle => fetchOp s
    | .done => fetchOp s
    | .fault => fetchOp s

/-- The sequencer at rest: where a multiplication is under way it is dropped, elsewhere nothing changes. -/
def State.park (s : State) : State :=
  match s.phase with
  | .idle | .done | .fault => { s with status := if s.status = .busy then .idle else s.status, start := false }
  | .init | .iter | .final => { s with phase := .idle, status := .idle, start := false }

/-- The state in which the very next step runs `i`, whose bytes are `bytes`: a sequencer step is selected by PHASE, RADIX
and the command's RADIX_SEL (and `I < M` for ITER), any other operation by its bytes being lined up. [log 5] -/
def State.place (i : Option Instr) (bytes : List Byte) (s : State) : State :=
  match i with
  | some .seqInit4 => { s with start := false, phase := .init, cmd := { s.cmd with radix := .r4 } }
  | some .seqInit8 => { s with start := false, phase := .init, cmd := { s.cmd with radix := .r8 } }
  | some .seqIter4 => { s with start := false, phase := .iter, radix := .r4, m := max s.m (s.i + 1) }
  | some .seqIter8 => { s with start := false, phase := .iter, radix := .r8, m := max s.m (s.i + 1) }
  | some .seqFinal4 => { s with start := false, phase := .final, radix := .r4 }
  | some .seqFinal8 => { s with start := false, phase := .final, radix := .r8 }
  | _ => { s.park with ops := bytes }

end Sys2Proof.Machine
end

