-- ==== Sys2Proof/Machine/Step.lean ====
section
/-! DEFINITION. One step of the machine (R44, R85), and the placing of one operation for the next step. -/

namespace Sys2Proof.Machine

/-- One step: what `fetch` selects is run; a block at rest that is asked for nothing stays as it is. [log 22] -/
def step (s : State) : Host.Outcome State Fault Refusal :=
  match fetch s with
  | .wait => .next s
  | .stuck r => .fault r
  | .refused r => .refused r
  | .run i s' => exec i s'

/-- `s` with the operation of an operation-table row placed so that the next step runs it: its bits are `w`, its operand
bytes zero. [log 5, log 21] -/
def State.withFetchWord (s : State) (nbits w : Nat) : State :=
  s.place (decodeTableWord nbits w) (tableWordBytes nbits w ++ List.replicate longestOperation 0)

end Sys2Proof.Machine
end

