-- ==== Sys2Proof/Machine/Transaction.lean ====
section
/-! DEFINITION. The two commands at transaction level (R85): a pure function from the command to a Result or a fault, at any
register width `w` (R8) and for any record of delay literals (R110). -/

namespace Sys2Proof.Machine

/-- `count` iterations, the last of them iteration `M-1`. -/
def Datapath.iterations {w : Nat} (cfg : DelayConfig) (r : Radix) (n : Nat) (count : Nat) (d : Datapath w) :
    Option (Datapath w) :=
  match count with
  | 0 => some d
  | c + 1 => (d.iterate cfg r n (c == 0)).bind (Datapath.iterations cfg r n c)

/-- `multiply_radix4` and `multiply_radix8` (R55, R86, R98): either a complete Result or a fault (R48, R128). -/
def multiply {w : Nat} (cfg : DelayConfig) (r : Radix) (multiplicand multiplier : BitVec w) (n : Nat) :
    Except Cause Result :=
  match checkCommand n multiplicand multiplier with
  | some (c, _) => .error c
  | none =>
    match (Datapath.load cfg r n multiplicand multiplier).bind (Datapath.iterations cfg r n (r.iterations n)) with
    | some d =>
      .ok { product := (sar (r.finalShift n) d.pq).toInt, iterations := r.iterations n, additions := d.adds, delay := d.delay }
    | none => .error .unsupportedWidth

end Sys2Proof.Machine
end

