-- ==== Sys2Proof/Safety.lean ====
section
/-! DEFINITION. The terms the claims use: Booth digits and their counts (R68, R72, R94), the control invariant (R22 to R27),
the loop invariant (R92, R103), and which operations write what (R42). -/

namespace Sys2Proof

open Machine

/-! ### Booth digits -/

/-- The closed form of R68 for a window of `k+1` bits. -/
def boothClosedForm (k : Nat) (win : BitVec (k + 1)) : Int :=
  -(2 ^ (k - 1)) * (win.getLsbD k).toInt
    + ((List.range (k - 1)).map fun t => 2 ^ t * (win.getLsbD (t + 1)).toInt).sum
    + (win.getLsbD 0).toInt

/-- `c_i`: the coefficient of group `t` of the integer `b`, its window being the low bits of `2b` shifted right `r*t` times
(R50, R51, R72). -/
def boothDigit (r : Radix) (b : Int) (t : Nat) : Int := recode r (BitVec.ofInt 4 ((2 * b) >>> (r.k * t)))

/-- For each of the first `count` groups, whether its coefficient is nonzero (R89, R120's `add_i`). -/
def boothAdds (r : Radix) (b : Int) (count : Nat) : List Bool :=
  (List.range count).map fun t => addsMultiple (boothDigit r b t)

/-- The number of nonzero coefficients among the first `count` groups (R92, R94, R105). -/
def boothAdditions (r : Radix) (b : Int) (count : Nat) : Nat := (boothAdds r b count).count true

/-- The signed value of the low `bits` bits of `b` (`S_j` of R92). -/
def signedLow (bits : Nat) (b : Int) : Int := b.bmod (2 ^ bits)

/-- PQ after `count` iterations: `A * S_j * 2^(n - r*j)` with `count = j+1` (R92, R103). -/
def partialProduct (r : Radix) (n : Nat) (a b : Int) : Nat → Int
  | 0 => 0
  | j + 1 => a * signedLow (r.k * (j + 1)) b * 2 ^ (n - r.k * j)

/-- DELAY after `count` iterations (R116, R118, R119): the precompute delay, the iterations' delays, and a latch delay after
each iteration but the last. -/
def delayAfter (r : Radix) (n : Nat) (b : Int) (count : Nat) : Option Nat :=
  match preDelay delayConfig r n, iterDelays delayConfig r n (boothAdds r b count) with
  | some pre, some its => some (pre + its + delayConfig.latchDelay * min count (r.iterations n - 1))
  | _, _ => none

/-- A command that INIT does not fault (R125): a supported width and two well-formed operands. -/
abbrev Acceptable {w : Nat} (n : Nat) (a b : BitVec w) : Prop :=
  n ∈ supportedWidths ∧ operandFits n a = true ∧ operandFits n b = true

/-- The command on the ports is one that INIT does not fault. -/
abbrev Machine.Command.acceptable (c : Command) : Prop := Acceptable c.width.toNat c.multiplicand c.multiplier

/-! ### Invariants -/

/-- N is a supported width and M the iteration count that belongs to it (R7, R23, R24). -/
abbrev Machine.State.Sized (s : State) : Prop := s.n ∈ supportedWidths ∧ s.m = s.radix.iterations s.n

/-- The control registers agree (R22 to R27, R131): what PHASE says of STATUS, CAUSE, I, M, N, and of the counts in the Result
record (R28). -/
abbrev Machine.State.Coherent (s : State) : Prop :=
  (s.phase = .idle → s.status = .idle ∧ s.cause = .none) ∧
  (s.phase = .init → s.status ≠ .busy) ∧
  (s.phase = .iter → s.status = .busy ∧ s.cause = .none ∧ s.Sized ∧ s.i < s.m) ∧
  (s.phase = .final → s.status = .busy ∧ s.cause = .none ∧ s.Sized ∧ s.i = s.m) ∧
  (s.phase = .done → s.status = .done ∧ s.cause = .none ∧ s.Sized ∧ s.i = s.m ∧
    s.record.iterations = s.m ∧ s.record.additions = s.adds ∧ s.record.delay = s.delay) ∧
  (s.phase = .fault → s.status = .fault ∧ s.cause ≠ .none)

/-- The multiplicand of the command on the ports, `sext_n(MULTIPLICAND)`. -/
def Machine.State.multiplicandValue (s : State) : Int := (sext s.cmd.width.toNat s.cmd.multiplicand).toInt

/-- The multiplier of the command on the ports, `sext_n(MULTIPLIER)`. -/
def Machine.State.multiplierValue (s : State) : Int := (sext s.cmd.width.toNat s.cmd.multiplier).toInt

/-- While a multiplication is under way its registers are what R92 and R103 say after I iterations of the command on the
ports. -/
def Machine.State.LoopInvariant (s : State) : Prop :=
  s.phase = .iter ∨ s.phase = .final →
    s.n = s.cmd.width.toNat ∧ s.radix = s.cmd.radix ∧
    s.a.toInt = s.multiplicandValue ∧
    s.q.toInt = (2 * s.multiplierValue) >>> (s.radix.k * s.i) ∧
    s.pq.toInt = partialProduct s.radix s.n s.multiplicandValue s.multiplierValue s.i ∧
    s.adds = boothAdditions s.radix s.multiplierValue s.i ∧
    some s.delay = delayAfter s.radix s.n s.multiplierValue s.i

/-! ### Which operations write what (R42, R57) -/

/-- The reads of the eight entries of REC4, by window. -/
def rec4EntryReads : List Instr :=
  [.rec4w000, .rec4w001, .rec4w010, .rec4w011, .rec4w100, .rec4w101, .rec4w110, .rec4w111]

/-- The reads of the sixteen entries of REC8, by window. -/
def rec8EntryReads : List Instr :=
  [.rec8w0000, .rec8w0001, .rec8w0010, .rec8w0011, .rec8w0100, .rec8w0101, .rec8w0110, .rec8w0111,
   .rec8w1000, .rec8w1001, .rec8w1010, .rec8w1011, .rec8w1100, .rec8w1101, .rec8w1110, .rec8w1111]

/-- What an operation of R57 may write. -/
inductive Footprint where
  /-- a whole command: the tuple of R15 -/
  | command
  /-- INIT -/
  | init
  /-- ITER -/
  | iter
  /-- FINAL -/
  | final
  /-- PQ -/
  | writesPq
  /-- Q -/
  | writesQ
  /-- no register of the tuple -/
  | value
  deriving DecidableEq, Repr

/-- The footprint of each operation, from the column "Writes" of R42 and the operations' own rules. -/
def Instr.footprint : Instr → Footprint
  | .mul4 _ _ _ | .mul8 _ _ _ => .command
  | .seqInit4 | .seqInit8 => .init
  | .seqIter4 | .seqIter8 => .iter
  | .seqFinal4 | .seqFinal8 => .final
  | .pqClr | .pqSetHi _ | .pqAcc _ | .pqSar _ => .writesPq
  | .qLoad _ _ | .qSar _ => .writesQ
  | .sext _ _ | .rec4 _ | .rec8 _ | .pqHigh | .pqLow | .pqValue => .value
  | .dlyCpl _ | .dlyMux _ | .dlyCsel _ | .dlyLatch | .dlyPre _ _ | .dlyIter _ _ _ | .dlyTotal _ _ _ => .value
  | .rec4w000 | .rec4w001 | .rec4w010 | .rec4w011 | .rec4w100 | .rec4w101 | .rec4w110 | .rec4w111 => .value
  | .rec8w0000 | .rec8w0001 | .rec8w0010 | .rec8w0011 | .rec8w0100 | .rec8w0101 | .rec8w0110 | .rec8w0111 => .value
  | .rec8w1000 | .rec8w1001 | .rec8w1010 | .rec8w1011 | .rec8w1100 | .rec8w1101 | .rec8w1110 | .rec8w1111 => .value

end Sys2Proof
end

