-- ==== Sys2Proof/Certificates/Slice0/Obligations.lean ====
section
/-! DEFINITION. The statements for the provers, each from the numbered rules of spec/ that its docstring cites. -/

open Sys2Proof Sys2Proof.Machine

/-! ### Decoding and encoding -/

/-- Decoding the bytes of a well-formed operation gives it back, for every operation, every operand its encoding admits and
whatever bytes follow (R57; the byte layout of operands is the model's, log 6). -/
def Obligations.DecodeInvertsEncode : Prop :=
  ∀ (i : Instr) (rest : List Byte), i.wellFormed = true → decode (encode i ++ rest) = .ok (i, rest)

/-- Each operation has one spelling: whatever decodes is well-formed and is the bytes the encoder writes (R49 "one fixed
length", R59; layout of log 6). -/
def Obligations.EncodeInvertsDecode : Prop :=
  ∀ (bs rest : List Byte) (i : Instr), decode bs = .ok (i, rest) → i.wellFormed = true ∧ bs = encode i ++ rest

/-- The codes of R57 decode to the operations they stand for, the coefficient in its pattern of R53. The spec gives the codes
and the pattern only: the operand bytes (their order, one byte for a natural, a word as eight bytes with the least significant
first) are the model's own layout, log 6 (DESIGN CHOICE). The commands carry the CMD values of programs P1 and P2. -/
def Obligations.SpecWordsDecode : Prop :=
  decode [0x00, 0x04, 0x0f, 0, 0, 0, 0, 0, 0, 0, 0x0e, 0, 0, 0, 0, 0, 0, 0] = .ok (.mul4 15 14 4, []) ∧
  decode [0x01, 0x04, 0x03, 0, 0, 0, 0, 0, 0, 0, 0x05, 0, 0, 0, 0, 0, 0, 0] = .ok (.mul8 3 5 4, []) ∧
  decode [0x02, 0x0e, 0, 0, 0, 0, 0, 0, 0, 0x04] = .ok (.sext 14 4, []) ∧
  decode [0x03, 0b100] = .ok (.rec4 0b100, []) ∧
  decode [0x09, 0b1101] = .ok (.pqAcc (-3), []) ∧
  decode [0x0a, 0x03] = .ok (.pqSar 3, []) ∧
  decode [0x10, 0x08] = .ok (.dlyCsel 8, []) ∧
  decode [0x1a] = .ok (.seqFinal8, [])

/-- The codes 0x1B to 0x1F are unassigned: bytes that begin with one are no operation, and a block at rest refuses them
(R59, U12). -/
def Obligations.UnassignedCodesRefused : Prop :=
  ∀ (b : Byte) (rest : List Byte), 0x1b ≤ b.toNat → b.toNat ≤ 0x1f →
    decode (b :: rest) = .error (.unassignedCode b) ∧
    ∀ s : State, s.start = false → (s.phase = .idle ∨ s.phase = .done ∨ s.phase = .fault) → s.ops = b :: rest →
      step s = .refused (.undecodable (.unassignedCode b))

/-! ### Reset and the step -/

/-- After power-on reset STATUS is IDLE, CAUSE is NONE and PHASE is IDLE, so the outputs are the codes 0 and 0 and no Result
is valid (R35, R56, R138). -/
def Obligations.ResetIsIdle : Prop :=
  State.reset.status = .idle ∧ State.reset.cause = .none ∧ State.reset.phase = .idle ∧
  State.reset.outputs = { status := 0, cause := 0, result := none }

/-- The codes of STATUS and CAUSE on the outputs (R56), and the Result on the outputs exactly while STATUS is DONE, being then the
record that FINAL read from PQ, M, ADDS and DELAY (R28, R36; that the value fields show the record and not the registers after
an operation of the host's has changed PQ is log 28, DESIGN CHOICE). -/
def Obligations.OutputsAreTheCodes : Prop :=
  ∀ s : State,
    s.outputs.status.toNat = (match s.status with | .idle => 0 | .busy => 1 | .done => 2 | .fault => 3) ∧
    s.outputs.cause.toNat =
      (match s.cause with | .none => 0 | .unsupportedWidth => 1 | .operandRange => 2 | .sextWidth => 3) ∧
    (s.status = .done → s.outputs.result = some s.record) ∧
    (s.status ≠ .done → s.outputs.result = none)

/-- A block at rest runs the operation lined up: where the bytes at the front decode to `i`, the step is `exec i` on the
state with those bytes taken (log 5); with nothing lined up it keeps its state (R36, R48; log 22). -/
def Obligations.StepRunsLinedUpOperation : Prop :=
  ∀ s : State, s.start = false → (s.phase = .idle ∨ s.phase = .done ∨ s.phase = .fault) →
    (∀ (i : Instr) (rest : List Byte), decode s.ops = .ok (i, rest) → step s = exec i { s with ops := rest }) ∧
    (s.ops = [] → step s = .next s)

/-- The sequencer's position selects its step: INIT of the command's radix, ITER and FINAL of RADIX (R22, R85). -/
def Obligations.StepRunsSequencer : Prop :=
  ∀ s : State, s.start = false →
    (s.phase = .init → s.cmd.radix = .r4 → step s = exec .seqInit4 s) ∧
    (s.phase = .init → s.cmd.radix = .r8 → step s = exec .seqInit8 s) ∧
    (s.phase = .iter → s.radix = .r4 → step s = exec .seqIter4 s) ∧
    (s.phase = .iter → s.radix = .r8 → step s = exec .seqIter8 s) ∧
    (s.phase = .final → s.radix = .r4 → step s = exec .seqFinal4 s) ∧
    (s.phase = .final → s.radix = .r8 → step s = exec .seqFinal8 s)

/-- START while STATUS is not BUSY is accepted, whatever PHASE is: the step is INIT of the radix that RADIX_SEL selects, with
the position at INIT and START taken (R55, R129; one step for both, log 14). -/
def Obligations.StartIsAcceptedAtRest : Prop :=
  ∀ s : State, s.start = true → s.status ≠ .busy →
    (s.cmd.radix = .r4 → step s = exec .seqInit4 { s with phase := .init, start := false }) ∧
    (s.cmd.radix = .r8 → step s = exec .seqInit8 { s with phase := .init, start := false })

/-- While STATUS is BUSY there is no move that starts a command: START, MUL4 and MUL8 are stuck (R55, R137, U10; the stop is
log 15). -/
def Obligations.StartWhileBusyIsStuck : Prop :=
  ∀ s : State, s.status = .busy →
    (s.start = true → step s = .fault .startWhileBusy) ∧
    (∀ (a b : Word) (w : BitVec 8), exec (.mul4 a b w) s = .fault .startWhileBusy ∧
      exec (.mul8 a b w) s = .fault .startWhileBusy)

/-! ### Invariants -/

/-- Reset meets both invariants (R35). -/
def Obligations.ResetMeetsInvariants : Prop := State.reset.Coherent ∧ State.reset.LoopInvariant

/-- Every step keeps the control registers coherent: STATUS, CAUSE, PHASE, I, M and N agree (R22 to R27, R131), and while DONE the
counts in the Result are M, ADDS and DELAY (R28). -/
def Obligations.StepKeepsCoherent : Prop := ∀ s t : State, s.Coherent → step s = .next t → t.Coherent

/-- Every step keeps the loop invariant of R92 and R103: while a multiplication is under way A, Q, PQ, ADDS and DELAY are the
functions of the command and of I that those rules give. -/
def Obligations.StepKeepsLoopInvariant : Prop :=
  ∀ s t : State, s.Coherent → s.LoopInvariant → step s = .next t → t.LoopInvariant

/-- FINAL delivers the product: from the loop invariant, FINAL's shift by `n mod r` leaves PQ = A * B, and the Result is complete
with that product (R28, R91, R92, R102, R103). -/
def Obligations.FinalDeliversProduct : Prop :=
  ∀ s : State, s.Coherent → s.LoopInvariant → s.start = false → s.phase = .final →
    ∃ t, step s = .next t ∧ t.status = .done ∧ t.phase = .done ∧
      t.pq.toInt = s.multiplicandValue * s.multiplierValue ∧
      t.result = some { product := s.multiplicandValue * s.multiplierValue, iterations := s.m,
                        additions := s.adds, delay := s.delay }

/-- A multiplication that has begun iterating is never stopped: every step of ITER and of FINAL answers a next state with no
fault (R125, R130, R131). -/
def Obligations.IteratingNeverFaults : Prop :=
  ∀ s : State, s.Coherent → s.start = false → (s.phase = .iter ∨ s.phase = .final) →
    ∃ t, step s = .next t ∧ t.status ≠ .fault ∧ t.cause = .none ∧ t.start = false ∧
      (s.phase = .iter → (t.phase = .iter ∧ t.i < t.m ∨ t.phase = .final) ∧ t.i = s.i + 1) ∧
      (s.phase = .final → t.phase = .done)

/-- The register-width bound: at every point of a multiplication `|PQ| <= 2^(2n+r-2)` (R95, R106). -/
def Obligations.DoubleRegisterStaysBounded : Prop :=
  ∀ s : State, s.Coherent → s.LoopInvariant → (s.phase = .iter ∨ s.phase = .final) →
    -(2 ^ (2 * s.n + s.radix.k - 2)) ≤ s.pq.toInt ∧ s.pq.toInt ≤ 2 ^ (2 * s.n + s.radix.k - 2)

/-- No information is lost by the shifts: the bits that ITER and FINAL shift out of PQ are all 0, so each shift is an exact
division (R84). -/
def Obligations.ShiftsLoseNothing : Prop :=
  ∀ s : State, s.Coherent → s.LoopInvariant →
    (s.phase = .iter → (sar s.radix.k s.pq).toInt * 2 ^ s.radix.k = s.pq.toInt) ∧
    (s.phase = .final → (sar (s.n % s.radix.k) s.pq).toInt * 2 ^ (s.n % s.radix.k) = s.pq.toInt)

/-! ### Commands at step level -/

/-- An accepted command runs to DONE in exactly `1 + m + 1` steps, BUSY in between, and gives the Result of the
transaction-level function (R85, R150, R151). That the count begins with START, accepting it being no step of its own, is the
model's choice, log 14 (DESIGN CHOICE). -/
def Obligations.StartedCommandRunsToDone : Prop :=
  ∀ s : State, s.start = true → s.status ≠ .busy → s.cmd.acceptable →
    let m := s.cmd.radix.iterations s.cmd.width.toNat
    (∀ k, 1 ≤ k → k ≤ m + 1 → ∃ u, core.run k s = .next u ∧ u.status = .busy) ∧
    ∃ t x, core.run (m + 2) s = .next t ∧ t.status = .done ∧ t.cause = .none ∧ t.result = some x ∧
      multiply delayConfig s.cmd.radix s.cmd.multiplicand s.cmd.multiplier s.cmd.width.toNat = .ok x

/-- A command that INIT rejects takes one step and ends in FAULT with the cause that INIT's checks give in their order; no
register but STATUS, CAUSE and PHASE is written (R125, R126, R127, R150). The one step accepts START and runs INIT: log 14
(DESIGN CHOICE). -/
def Obligations.StartedCommandFaultsInOneStep : Prop :=
  ∀ s : State, s.start = true → s.status ≠ .busy → ¬ s.cmd.acceptable →
    ∃ info, step s = .next { s with
      start := false, status := .fault, phase := .fault, info := info, ret := none,
      cause := if s.cmd.width.toNat ∈ supportedWidths then .operandRange else .unsupportedWidth }

/-! ### Commands at transaction level -/

/-- MUL4 is exact: for every supported width and every well-formed operand pair the product is the signed product of the two
`n`-bit operands (R93), with the iterations, additions and delay of R94 and R120, and the registers as R86 leaves them. The
model's choices: MUL4 as an operation runs the whole command in one step, log 19, and leaves the operations lined up as they
are, log 5 (both DESIGN CHOICE). -/
def Obligations.Mul4IsExact : Prop :=
  ∀ (s : State) (a b : Word) (w : BitVec 8), s.status ≠ .busy → Acceptable w.toNat a b →
    ∃ t d, exec (.mul4 a b w) s = .next t ∧
      t.result = some { product := (sext w.toNat a).toInt * (sext w.toNat b).toInt,
                        iterations := (w.toNat + 2) / 2,
                        additions := boothAdditions .r4 (sext w.toNat b).toInt ((w.toNat + 2) / 2), delay := d } ∧
      totalDelay delayConfig .r4 w.toNat (boothAdds .r4 (sext w.toNat b).toInt ((w.toNat + 2) / 2)) = some d ∧
      t.pq.toInt = (sext w.toNat a).toInt * (sext w.toNat b).toInt ∧ t.m = (w.toNat + 2) / 2 ∧
      t.adds = boothAdditions .r4 (sext w.toNat b).toInt ((w.toNat + 2) / 2) ∧ t.delay = d ∧
      t.phase = .done ∧ t.cause = .none ∧ t.n = w.toNat ∧ t.radix = .r4 ∧ t.i = t.m ∧ t.a = sext w.toNat a ∧
      t.q.toInt = (2 * (sext w.toNat b).toInt) >>> (2 * t.m) ∧ t.ops = s.ops

/-- MUL8 is exact: for every supported width and every well-formed operand pair the product is the signed product of the two
`n`-bit operands (R104), with the iterations, additions and delay of R105 and R120, and the registers as R98 leaves them. The
model's choices are those of MUL4, logs 19 and 5 (both DESIGN CHOICE). -/
def Obligations.Mul8IsExact : Prop :=
  ∀ (s : State) (a b : Word) (w : BitVec 8), s.status ≠ .busy → Acceptable w.toNat a b →
    ∃ t d, exec (.mul8 a b w) s = .next t ∧
      t.result = some { product := (sext w.toNat a).toInt * (sext w.toNat b).toInt,
                        iterations := (w.toNat + 3) / 3,
                        additions := boothAdditions .r8 (sext w.toNat b).toInt ((w.toNat + 3) / 3), delay := d } ∧
      totalDelay delayConfig .r8 w.toNat (boothAdds .r8 (sext w.toNat b).toInt ((w.toNat + 3) / 3)) = some d ∧
      t.pq.toInt = (sext w.toNat a).toInt * (sext w.toNat b).toInt ∧ t.m = (w.toNat + 3) / 3 ∧
      t.adds = boothAdditions .r8 (sext w.toNat b).toInt ((w.toNat + 3) / 3) ∧ t.delay = d ∧
      t.phase = .done ∧ t.cause = .none ∧ t.n = w.toNat ∧ t.radix = .r8 ∧ t.i = t.m ∧ t.a = sext w.toNat a ∧
      t.q.toInt = (2 * (sext w.toNat b).toInt) >>> (3 * t.m) ∧ t.ops = s.ops

/-- An unsupported width faults both commands, for every operand value and before the operands are looked at: STATUS, CAUSE
and PHASE are written, the offending width is recorded, no register of the datapath changes (R123, R126, R127). -/
def Obligations.UnsupportedWidthFaultsCommands : Prop :=
  ∀ (s : State) (a b : Word) (w : BitVec 8), s.status ≠ .busy → w.toNat ∉ supportedWidths →
    exec (.mul4 a b w) s = .next { s with
      cmd := { radix := .r4, width := w, multiplicand := a, multiplier := b }, start := false,
      status := .fault, cause := .unsupportedWidth, phase := .fault, info := .width w.toNat, ret := none } ∧
    exec (.mul8 a b w) s = .next { s with
      cmd := { radix := .r8, width := w, multiplicand := a, multiplier := b }, start := false,
      status := .fault, cause := .unsupportedWidth, phase := .fault, info := .width w.toNat, ret := none }

/-- At a supported width an operand that is not well-formed faults both commands with ContractViolation_OperandRange (R124,
R127). -/
def Obligations.OperandRangeFaultsCommands : Prop :=
  ∀ (s : State) (a b : Word) (w : BitVec 8), s.status ≠ .busy → w.toNat ∈ supportedWidths →
    ¬ (operandFits w.toNat a = true ∧ operandFits w.toNat b = true) →
    ∃ info,
      exec (.mul4 a b w) s = .next { s with
        cmd := { radix := .r4, width := w, multiplicand := a, multiplier := b }, start := false,
        status := .fault, cause := .operandRange, phase := .fault, info := info, ret := none } ∧
      exec (.mul8 a b w) s = .next { s with
        cmd := { radix := .r8, width := w, multiplicand := a, multiplier := b }, start := false,
        status := .fault, cause := .operandRange, phase := .fault, info := info, ret := none }

/-- What `WellFormed(x, n)` accepts: the values `0 .. 2^n - 1` (zero-extended) and `-2^(n-1) .. 2^(n-1) - 1` (sign-extended)
(R124). -/
def Obligations.OperandFitsMeansRange : Prop :=
  ∀ (x : Word) (n : Nat), 1 ≤ n → n ≤ 64 →
    (operandFits n x = true ↔
      x.toNat < 2 ^ n ∨ (-(2 ^ (n - 1)) ≤ x.toInt ∧ x.toInt < 2 ^ (n - 1)))

/-- A command is a pure function of the command: the state in which it is issued changes nothing the host can see (R32, R97,
R139). -/
def Obligations.CommandsForgetEarlierState : Prop :=
  ∀ (s s' : State) (a b : Word) (w : BitVec 8), s.status ≠ .busy → s'.status ≠ .busy →
    (∃ t t', exec (.mul4 a b w) s = .next t ∧ exec (.mul4 a b w) s' = .next t' ∧ t.outputs = t'.outputs) ∧
    (∃ t t', exec (.mul8 a b w) s = .next t ∧ exec (.mul8 a b w) s' = .next t' ∧ t.outputs = t'.outputs)

/-- Running the steps inside MUL4 and MUL8 gives the transaction-level result: the Result of `multiply`, or its fault as
CAUSE (R85, R48, R128). -/
def Obligations.CommandsAgreeWithTransaction : Prop :=
  ∀ (s : State) (a b : Word) (w : BitVec 8), s.status ≠ .busy →
    (∃ t, exec (.mul4 a b w) s = .next t ∧
      match multiply delayConfig .r4 a b w.toNat with
      | .ok x => t.status = .done ∧ t.cause = .none ∧ t.result = some x
      | .error c => t.status = .fault ∧ t.cause = c ∧ t.result = none) ∧
    (∃ t, exec (.mul8 a b w) s = .next t ∧
      match multiply delayConfig .r8 a b w.toNat with
      | .ok x => t.status = .done ∧ t.cause = .none ∧ t.result = some x
      | .error c => t.status = .fault ∧ t.cause = c ∧ t.result = none)

/-- Every register width `W >= 27` computes the exact product, whatever the delay literals, as long as the delay table knows
the supported widths (R8, R95, R106; D1, D27). -/
def Obligations.ProductExactAtEveryRegisterWidth : Prop :=
  ∀ (width : Nat) (cfg : DelayConfig) (r : Radix) (n : Nat) (a b : BitVec width), 27 ≤ width → Acceptable n a b →
    (carrySelectDelay cfg n).isSome = true →
    ∃ x, multiply cfg r a b n = .ok x ∧ x.product = (sext n a).toInt * (sext n b).toInt ∧
      x.iterations = r.iterations n ∧ x.additions = boothAdditions r (sext n b).toInt (r.iterations n)

/-- One bit less than `2n + r` is not enough: at every supported width and for both radices some well-formed operand pair
gets a wrong product in registers of `2n + r - 1` bits (R95, R146). -/
def Obligations.NarrowerRegisterFails : Prop :=
  ∀ (r : Radix) (n : Nat), n ∈ supportedWidths →
    ∃ (a b : BitVec (2 * n + r.k - 1)) (x : Result), Acceptable n a b ∧ multiply delayConfig r a b n = .ok x ∧
      x.product ≠ (sext n a).toInt * (sext n b).toInt

/-- For all valid inputs the two commands' products agree; the other three Result fields differ in general: the iterations
always, the additions and the delay for a multiplier of 2, say (R107). -/
def Obligations.RadicesAgreeOnProduct : Prop :=
  ∀ (s : State) (a b : Word) (w : BitVec 8), s.status ≠ .busy → Acceptable w.toNat a b →
    ∃ t t' x x', exec (.mul4 a b w) s = .next t ∧ exec (.mul8 a b w) s = .next t' ∧
      t.result = some x ∧ t'.result = some x' ∧ x.product = x'.product ∧ x.iterations ≠ x'.iterations ∧
      (b = 2 → x.additions ≠ x'.additions ∧ x.delay ≠ x'.delay)

/-- The product is exactly `2n` bits wide: PQ above bit `2n-1` is copies of that bit (R54, R96). -/
def Obligations.ProductFitsTwiceTheWidth : Prop :=
  ∀ (s : State) (a b : Word) (w : BitVec 8), s.status ≠ .busy → Acceptable w.toNat a b →
    (∃ t, exec (.mul4 a b w) s = .next t ∧ t.pq = sext (2 * w.toNat) t.pq) ∧
    (∃ t, exec (.mul8 a b w) s = .next t ∧ t.pq = sext (2 * w.toNat) t.pq)

/-- The additions and the delay depend on the width and the multiplier only, not on the multiplicand (R94, R105, R121). -/
def Obligations.CostIgnoresMultiplicand : Prop :=
  ∀ (s : State) (a a' b : Word) (w : BitVec 8), s.status ≠ .busy → Acceptable w.toNat a b → Acceptable w.toNat a' b →
    (∃ t t', exec (.mul4 a b w) s = .next t ∧ exec (.mul4 a' b w) s = .next t' ∧ t.m = t'.m ∧ t.adds = t'.adds ∧
      t.delay = t'.delay) ∧
    (∃ t t', exec (.mul8 a b w) s = .next t ∧ exec (.mul8 a' b w) s = .next t' ∧ t.m = t'.m ∧ t.adds = t'.adds ∧
      t.delay = t'.delay)

/-- The ranges of the counters at the end of a multiplication: M in 2..7, ADDS at most `n/2` for MUL4 (R94) and at most 2, 2,
3, 4, 4 for MUL8 at `n` = 4, 6, 8, 10, 12 (R105), ADDS 0 for multiplier 0 only, DELAY in 22..130 (R24, R25, R26). -/
def Obligations.CountersStayInRange : Prop :=
  ∀ (s : State) (a b : Word) (w : BitVec 8), s.status ≠ .busy → Acceptable w.toNat a b →
    (∃ t, exec (.mul4 a b w) s = .next t ∧ 2 ≤ t.m ∧ t.m ≤ 7 ∧ 22 ≤ t.delay ∧ t.delay ≤ 130 ∧
      t.adds ≤ w.toNat / 2 ∧ (t.adds = 0 ↔ (sext w.toNat b).toInt = 0)) ∧
    (∃ t, exec (.mul8 a b w) s = .next t ∧ 2 ≤ t.m ∧ t.m ≤ 7 ∧ 22 ≤ t.delay ∧ t.delay ≤ 130 ∧
      t.adds ≤ (if w.toNat ≤ 6 then 2 else if w.toNat = 8 then 3 else 4) ∧ (t.adds = 0 ↔ (sext w.toNat b).toInt = 0))

/-! ### The sequencer's steps -/

/-- INIT of an acceptable command writes the whole tuple (R87, R99): operands sign-extended, the implicit 0, PQ zeroed, M and
the precompute delay from the radix. -/
def Obligations.InitLoadsEverything : Prop :=
  ∀ s : State, s.phase = .init → s.cmd.acceptable →
    (s.cmd.radix = .r4 → ∃ t, exec .seqInit4 s = .next t ∧
      t = { s with a := sext s.cmd.width.toNat s.cmd.multiplicand, q := t.q, pq := 0, n := s.cmd.width.toNat, radix := .r4,
                   m := (s.cmd.width.toNat + 2) / 2, i := 0, adds := 0, delay := s.cmd.width.toNat, phase := .iter,
                   status := .busy, cause := .none, info := .none, ret := none } ∧
      t.q.toInt = 2 * s.multiplierValue) ∧
    (s.cmd.radix = .r8 → ∃ t csd, exec .seqInit8 s = .next t ∧ carrySelectDelay delayConfig s.cmd.width.toNat = some csd ∧
      t = { s with a := sext s.cmd.width.toNat s.cmd.multiplicand, q := t.q, pq := 0, n := s.cmd.width.toNat, radix := .r8,
                   m := (s.cmd.width.toNat + 3) / 3, i := 0, adds := 0, delay := s.cmd.width.toNat + csd, phase := .iter,
                   status := .busy, cause := .none, info := .none, ret := none } ∧
      t.q.toInt = 2 * s.multiplierValue)

/-- ITER, sub-steps a to e in their order (R88, R89, R90, R100, R101): PQ is shifted first, the coefficient is that of Q as it
stood, a nonzero one adds `c * A` at weight `2^n` to the shifted PQ and counts, Q is shifted, the iteration's delay and, but
after the last iteration, the latch delay are added, the position advances. Nothing else changes. -/
def Obligations.IterationFollowsSubsteps : Prop :=
  ∀ (r : Radix) (s : State), s.phase = .iter → s.i < s.m → s.n ∈ supportedWidths →
    let c := recode r s.q
    ∃ t d, exec (iterInstr r) s = .next t ∧
      iterDelay delayConfig r s.n (c != 0) = some d ∧
      t = { s with
        pq := BitVec.ofInt 64 (s.pq.toInt / 2 ^ r.k + c * s.a.toInt * 2 ^ s.n),
        q := t.q,
        adds := if c = 0 then s.adds else s.adds + 1,
        delay := s.delay + d + (if s.i + 1 = s.m then 0 else 3),
        i := s.i + 1,
        phase := if s.i + 1 = s.m then .final else .iter,
        ret := none } ∧
      t.q.toInt = s.q.toInt / 2 ^ r.k

/-- FINAL shifts PQ right by `n mod 2` (SEQ.FINAL4, R91) or `n mod 3` (SEQ.FINAL8, R102), and the Result is produced, its fields
read as product = PQ, iterations = M, additions = ADDS, delay = DELAY (R28). Nothing else changes. -/
def Obligations.FinalShiftsAndCompletes : Prop :=
  ∀ s : State, s.phase = .final →
    (∃ t, exec .seqFinal4 s = .next t ∧ t.pq.toInt = s.pq.toInt / 2 ^ (s.n % 2) ∧
      t = { s with
        pq := t.pq, phase := .done, status := .done, ret := none,
        record := { product := t.pq.toInt, iterations := s.m, additions := s.adds, delay := s.delay } }) ∧
    (∃ t, exec .seqFinal8 s = .next t ∧ t.pq.toInt = s.pq.toInt / 2 ^ (s.n % 3) ∧
      t = { s with
        pq := t.pq, phase := .done, status := .done, ret := none,
        record := { product := t.pq.toInt, iterations := s.m, additions := s.adds, delay := s.delay } })

/-- A sequencer step asked for where a precondition of its rule does not hold is stuck: INIT where PHASE is not INIT or the
command selects the other radix (R87, R99), ITER where PHASE is not ITER or `I < M` does not hold (R88, R100), FINAL where
PHASE is not FINAL (R91, R102; that `I = M` in FINAL is part of `State.Coherent`). That a step without its precondition is a
stop is the model's reading, log 16 (DEDUCED). -/
def Obligations.SequencerStepsOutsidePhaseAreStuck : Prop :=
  ∀ s : State,
    (s.phase ≠ .init ∨ s.cmd.radix = .r8 → exec .seqInit4 s = .fault .outsidePhase) ∧
    (s.phase ≠ .init ∨ s.cmd.radix = .r4 → exec .seqInit8 s = .fault .outsidePhase) ∧
    (s.phase ≠ .iter ∨ s.m ≤ s.i → exec .seqIter4 s = .fault .outsidePhase ∧ exec .seqIter8 s = .fault .outsidePhase) ∧
    (s.phase ≠ .final → exec .seqFinal4 s = .fault .outsidePhase ∧ exec .seqFinal8 s = .fault .outsidePhase)

/-! ### Sign extension -/

/-- SEXT for `1 <= n <= W`: bits below `n` are those of `x`, every higher bit is bit `n-1` (R62); the value handed back is the
`W`-bit two's-complement value of those bits, and no state is written. -/
def Obligations.SextReplicatesSignBit : Prop :=
  ∀ (s : State) (x : Word) (n : Nat), 1 ≤ n → n ≤ 64 →
    ∃ y : Word, exec (.sext x n) s = .next { s with ret := some y.toInt } ∧
      ∀ i, i < 64 → y.getLsbD i = x.getLsbD (min i (n - 1))

/-- SEXT's value: `low - 2^n` where bit `n-1` is set, `low` elsewhere, `low` being the low `n` bits (R62); so it is in
`[-2^(n-1), 2^(n-1) - 1]`, and SEXT of it is it again. -/
def Obligations.SextValueAndIdempotence : Prop :=
  ∀ (x : Word) (n : Nat), 1 ≤ n → n ≤ 64 →
    (sext n x).toInt = (if x.getLsbD (n - 1) then ((x.toNat % 2 ^ n : Nat) : Int) - 2 ^ n else (x.toNat % 2 ^ n : Nat)) ∧
    -(2 ^ (n - 1)) ≤ (sext n x).toInt ∧ (sext n x).toInt ≤ 2 ^ (n - 1) - 1 ∧ sext n (sext n x) = sext n x

/-- SEXT with `n = 0` or `n > W` raises ContractViolation_SextWidth and hands back no value (R63, D9; the entry is that of
R127, log 9), and so does Q.LOAD on its own (log 12), whose `n` is an operand and not N (log 27). -/
def Obligations.SextOutsideContractFaults : Prop :=
  ∀ (s : State) (x : Word) (n : Nat), n = 0 ∨ 64 < n →
    exec (.sext x n) s = .next { s with
      status := .fault, cause := .sextWidth, phase := .fault, info := .width n, ret := none } ∧
    exec (.qLoad x n) s = .next { s with
      status := .fault, cause := .sextWidth, phase := .fault, info := .width n, ret := none }

/-! ### Recoders -/

/-- REC4, and the read of each of its eight entries, hand back `-2*w[2] + w[1] + w[0]` and write nothing else (R66, R68, R70). -/
def Obligations.Rec4IsClosedForm : Prop :=
  ∀ (win : BitVec 3) (s : State),
    exec (.rec4 win) s = .next { s with ret := some (boothClosedForm 2 win) } ∧
    ∃ i, rec4EntryReads[win.toNat]? = some i ∧ exec i s = .next { s with ret := some (boothClosedForm 2 win) }

/-- REC8, and the read of each of its sixteen entries, hand back `-4*w[3] + 2*w[2] + w[1] + w[0]` and write nothing else (R67,
R68, R70). -/
def Obligations.Rec8IsClosedForm : Prop :=
  ∀ (win : BitVec 4) (s : State),
    exec (.rec8 win) s = .next { s with ret := some (boothClosedForm 3 win) } ∧
    ∃ i, rec8EntryReads[win.toNat]? = some i ∧ exec i s = .next { s with ret := some (boothClosedForm 3 win) }

/-- Both tables are symmetric under bit-complement, map the all-0 and all-1 windows to 0, and lie in `[-2^(k-1), 2^(k-1)]`
(R69). -/
def Obligations.RecodersAreAntisymmetric : Prop :=
  ∀ s : State,
    (∀ win : BitVec 3, ∃ c : Int, exec (.rec4 win) s = .next { s with ret := some c } ∧
      exec (.rec4 (~~~win)) s = .next { s with ret := some (-c) } ∧ -2 ≤ c ∧ c ≤ 2 ∧ (win = 0 ∨ win = 7 → c = 0)) ∧
    (∀ win : BitVec 4, ∃ c : Int, exec (.rec8 win) s = .next { s with ret := some c } ∧
      exec (.rec8 (~~~win)) s = .next { s with ret := some (-c) } ∧ -4 ≤ c ∧ c ≤ 4 ∧ (win = 0 ∨ win = 15 → c = 0))

/-- The recoding identity: for every integer `b`, the first `j+1` coefficients weighted by `2^(r*i)` sum to the signed value
of the low `r*(j+1)` bits of `b`; for an `n`-bit `b` with `r*(j+1) >= n` the sum is `b` and every further coefficient is 0
(R72). -/
def Obligations.RecodingIdentity : Prop :=
  ∀ (r : Radix) (b : Int) (j : Nat),
    ((List.range (j + 1)).map fun t => boothDigit r b t * 2 ^ (r.k * t)).sum = signedLow (r.k * (j + 1)) b ∧
    ∀ n : Nat, 1 ≤ n → -(2 ^ (n - 1)) ≤ b → b < 2 ^ (n - 1) → n ≤ r.k * (j + 1) →
      signedLow (r.k * (j + 1)) b = b ∧ ∀ t, j < t → boothDigit r b t = 0

/-! ### The double register and the shifters -/

/-- PQ.CLR writes 0 to all of PQ (R74). -/
def Obligations.ClearZeroesDoubleRegister : Prop :=
  ∀ s : State, exec .pqClr s = .next { s with pq := 0, ret := none }

/-- PQ.HIGH hands back `floor(PQ / 2^n)`, PQ.LOW the low `n` bits unsigned, PQ.VALUE all of PQ; they write nothing, and the
halves make up the register: `PQ = HIGH * 2^n + LOW` (R18, R75, R76, R83). -/
def Obligations.HalvesMakeUpDoubleRegister : Prop :=
  ∀ s : State, s.n ≤ 64 → ∃ (high : Int) (low : Nat),
    exec .pqHigh s = .next { s with ret := some high } ∧
    exec .pqLow s = .next { s with ret := some low } ∧
    exec .pqValue s = .next { s with ret := some s.pq.toInt } ∧
    high = s.pq.toInt / 2 ^ s.n ∧ low < 2 ^ s.n ∧ s.pq.toInt = high * 2 ^ s.n + low ∧
    ∀ i, low.testBit i = (decide (i < s.n) && s.pq.getLsbD i)

/-- PQ.SETHI keeps the low half and writes bit `i-n` of `v` to each bit `i` of the high half: the old high bits are gone
(R77, R144). -/
def Obligations.SetHighClearsThenWrites : Prop :=
  ∀ (s : State) (v : Int), s.n ≤ 64 → ∃ y : Word, exec (.pqSetHi v) s = .next { s with pq := y, ret := none } ∧
    ∀ i, i < 64 → y.getLsbD i = (if i < s.n then s.pq.getLsbD i else (BitVec.ofInt 64 v).getLsbD (i - s.n))

/-- The read-modify-write law: for any integer `d`, PQ.SETHI of `PQ.HIGH + d` is `PQ <- wrap_W(PQ + d * 2^n)`, and it is the
same where the unsigned high field stands in for PQ.HIGH (R78). -/
def Obligations.ReadModifyWriteLaw : Prop :=
  ∀ (s : State) (d : Int),
    (∃ high : Int, exec .pqHigh s = .next { s with ret := some high } ∧
      exec (.pqSetHi (high + d)) s = .next { s with pq := BitVec.ofInt 64 (s.pq.toInt + d * 2 ^ s.n), ret := none }) ∧
    exec (.pqSetHi ((s.pq.toNat / 2 ^ s.n : Nat) + d)) s =
      .next { s with pq := BitVec.ofInt 64 (s.pq.toInt + d * 2 ^ s.n), ret := none }

/-- PQ.ACC is `PQ <- wrap_W(PQ + c * A * 2^n)`; ADDS is not touched (R79). -/
def Obligations.AccumulateAddsMultiple : Prop :=
  ∀ (s : State) (c : Int),
    exec (.pqAcc c) s = .next { s with pq := BitVec.ofInt 64 (s.pq.toInt + c * s.a.toInt * 2 ^ s.n), ret := none }

/-- PQ.SAR and Q.SAR are arithmetic: the value is `floor(v / 2^s)`, bit `i` is old bit `i+s`, and the sign bit is replicated
(R80, R82, R143). -/
def Obligations.ShiftsAreArithmetic : Prop :=
  ∀ (s : State) (amount : Nat),
    (∃ y : Word, exec (.pqSar amount) s = .next { s with pq := y, ret := none } ∧ y.toInt = s.pq.toInt / 2 ^ amount ∧
      ∀ i, i < 64 → y.getLsbD i = (if i + amount ≤ 63 then s.pq.getLsbD (i + amount) else s.pq.getLsbD 63)) ∧
    (∃ y : Word, exec (.qSar amount) s = .next { s with q := y, ret := none } ∧ y.toInt = s.q.toInt / 2 ^ amount ∧
      ∀ i, i < 64 → y.getLsbD i = (if i + amount ≤ 63 then s.q.getLsbD (i + amount) else s.q.getLsbD 63))

/-- Q.LOAD inserts the implicit 0 below bit 0: `Q[0] = 0`, `Q[i+1] = b[i]` for `i < n`, and copies of `b[n-1]` above (R52, R81).
That a lone Q.LOAD takes the multiplier and `n` as operands of its own, unrelated to the port MULTIPLIER and to N, is the
model's choice, log 27 (DESIGN CHOICE). -/
def Obligations.LoadInsertsImplicitZero : Prop :=
  ∀ (s : State) (x : Word) (n : Nat), 1 ≤ n → n ≤ 64 →
    ∃ y : Word, exec (.qLoad x n) s = .next { s with q := y, ret := none } ∧ y.getLsbD 0 = false ∧
      (∀ i, i + 1 < 64 → y.getLsbD (i + 1) = x.getLsbD (min i (n - 1))) ∧
      (n < 64 → y.toInt = 2 * (sext n x).toInt)

/-! ### The delay model -/

/-- The delay functions that consult no table: `complement_delay(n) = n` (R111), `mux_delay(s) = s + 1` (R112),
`LATCH_DELAY = 3` (R114), and the precompute cost of radix 4, which is `n` (R116). -/
def Obligations.DelayPrimitives : Prop :=
  ∀ (s : State) (n : Nat),
    exec (.dlyCpl n) s = .next { s with ret := some (n : Int) } ∧
    exec (.dlyMux n) s = .next { s with ret := some ((n : Int) + 1) } ∧
    exec .dlyLatch s = .next { s with ret := some 3 } ∧
    exec (.dlyPre .r4 n) s = .next { s with ret := some (n : Int) }

/-- The table `CSD` (R113) and what is built on it at the supported widths: the precompute cost of radix 8 (R116) and the
delay of one iteration, the slower of the add path and the lookup path (R115, R117, R118). -/
def Obligations.DelayTableOperations : Prop :=
  ∀ (s : State) (n csd : Nat), (n, csd) ∈ [(4, 8), (6, 10), (8, 12), (10, 12), (12, 14)] →
    exec (.dlyCsel n) s = .next { s with ret := some (csd : Int) } ∧
    exec (.dlyPre .r8 n) s = .next { s with ret := some ((n : Int) + csd) } ∧
    ∀ (r : Radix) (add : Bool),
      exec (.dlyIter r n add) s = .next { s with
        ret := some (max (if add then (csd : Int) + 2 else 2) ((r.k : Int) + 2)) }

/-- A width outside the table raises UnsupportedWidth in DLY.CSEL (R113), DLY.PRE radix 8, DLY.ITER and DLY.TOTAL run on
their own (R132; that DLY.ITER faults whether or not it adds is log 10, and DLY.TOTAL log 11). -/
def Obligations.UnsupportedWidthFaultsDelays : Prop :=
  ∀ (s : State) (n : Nat), n ∉ supportedWidths → ∀ t : State,
    t = { s with status := .fault, cause := .unsupportedWidth, phase := .fault, info := .width n, ret := none } →
    exec (.dlyCsel n) s = .next t ∧ exec (.dlyPre .r8 n) s = .next t ∧
    (∀ (r : Radix) (add : Bool), exec (.dlyIter r n add) s = .next t) ∧
    (∀ (r : Radix) (adds : List Bool), adds.length = r.iterations n → exec (.dlyTotal r n adds) s = .next t)

/-- DLY.TOTAL in closed form: it depends on the number `a` of iterations that add only (R120). -/
def Obligations.TotalDelayClosedForm : Prop :=
  ∀ (s : State) (r : Radix) (n csd : Nat) (adds : List Bool),
    (n, csd) ∈ [(4, 8), (6, 10), (8, 12), (10, 12), (12, 14)] → adds.length = r.iterations n →
    let m := r.iterations n
    let a := adds.count true
    exec (.dlyTotal r n adds) s = .next { s with
      ret := some (((if r = .r4 then n else n + csd) + a * (csd + 2) + (m - a) * (r.k + 2) + 3 * (m - 1) : Nat) : Int) }

/-- Delay monotonicity: at a fixed width each further addition raises the delay by `CSD[n] - k > 0` (R121). -/
def Obligations.MoreAdditionsDelayMore : Prop :=
  ∀ (r : Radix) (n csd : Nat) (adds adds' : List Bool),
    (n, csd) ∈ [(4, 8), (6, 10), (8, 12), (10, 12), (12, 14)] → adds.length = r.iterations n →
    adds'.length = r.iterations n → adds.count true ≤ adds'.count true →
    ∃ d d', totalDelay delayConfig r n adds = some d ∧ totalDelay delayConfig r n adds' = some d' ∧
      d' = d + (adds'.count true - adds.count true) * (csd - r.k) ∧ r.k < csd

/-! ### Frames -/

/-- What the operations that only hand a value back leave unchanged (SEXT, REC4, REC8, PQ.HIGH, PQ.LOW, PQ.VALUE, DLY.*, and
the reads of the table entries): everything but the value handed back (R42, R62, R66, R70); or, where SEXT or DLY.* on its own
raises a fault, everything but STATUS, CAUSE and PHASE. That such a fault takes the entry R127 describes for INIT, PHASE
included, is the model's inference, log 9 (DEDUCED), and that DLY.ITER and DLY.TOTAL fault on their own so is logs 10 and 11
(DEDUCED); `info` and `ret` are the model's fields, logs 8 and 7. -/
def Obligations.FrameOfValueOperations : Prop :=
  ∀ (i : Instr) (s t : State), i.footprint = .value → exec i s = .next t →
    t = { s with ret := t.ret } ∨
    (t.cause ≠ .none ∧ t = { s with status := .fault, phase := .fault, cause := t.cause, info := t.info, ret := none })

/-- PQ.CLR, PQ.SETHI, PQ.ACC and PQ.SAR change PQ alone (R42, R74, R77, R79, R80), Q.SAR changes Q alone (R42, R82), and so does
Q.LOAD for `1 <= n <= W` (R42, R81). For `n = 0` or `n > W` Q.LOAD on its own writes STATUS, CAUSE and PHASE and no register of
the datapath: R81 gives it no exception of its own, and that it raises what SEXT raises, with R127's entry, is the model's
inference, logs 12 and 9 (both DEDUCED); that `n` is an operand of Q.LOAD and not N is log 27 (DESIGN CHOICE). -/
def Obligations.FrameOfRegisterWrites : Prop :=
  ∀ (i : Instr) (s t : State), exec i s = .next t →
    (i.footprint = .writesPq → t = { s with pq := t.pq, ret := none }) ∧
    (∀ amount, i = .qSar amount → t = { s with q := t.q, ret := none }) ∧
    (∀ x n, i = .qLoad x n →
      (1 ≤ n ∧ n ≤ 64 → t = { s with q := t.q, ret := none }) ∧
      (n = 0 ∨ 64 < n →
        t = { s with status := .fault, phase := .fault, cause := .sextWidth, info := .width n, ret := none }))

/-- A, N, RADIX and M are written by INIT only, and ADDS, DELAY and I by INIT and ITER only: no other operation changes them (R16,
R23 to R26, R134). That MUL4 and MUL8 as operations drive the ports is log 19, and no other operation changes the ports or START;
that the operations lined up by the host are changed by the step alone, and by no operation, is log 5 (both DESIGN CHOICE). -/
def Obligations.OnlySequencerWritesControl : Prop :=
  ∀ (i : Instr) (s t : State), exec i s = .next t →
    t.ops = s.ops ∧
    (i.footprint ≠ .command → t.cmd = s.cmd ∧ t.start = s.start ∧
      (i.footprint ≠ .init → t.a = s.a ∧ t.n = s.n ∧ t.radix = s.radix ∧ t.m = s.m ∧
        (i.footprint ≠ .iter → t.adds = s.adds ∧ t.delay = s.delay ∧ t.i = s.i)))

/-- An operation that ends in FAULT, from a state that was not in FAULT, writes no register of the datapath: A, Q, PQ, N, RADIX,
M, I, ADDS and DELAY keep what they held, PHASE is FAULT and there is no Result. For INIT and the whole commands this is R125,
R127 and R128; for SEXT, Q.LOAD and DLY.* on their own the same entry is the model's inference, log 9 (DEDUCED), and for ITER at
a width outside CSD it is log 18 (DESIGN CHOICE). -/
def Obligations.FaultsWriteNoDatapathRegister : Prop :=
  ∀ (i : Instr) (s t : State), exec i s = .next t → t.status = .fault → s.status ≠ .fault →
    t.a = s.a ∧ t.q = s.q ∧ t.pq = s.pq ∧ t.n = s.n ∧ t.radix = s.radix ∧ t.m = s.m ∧ t.i = s.i ∧ t.adds = s.adds ∧
    t.delay = s.delay ∧ t.phase = .fault ∧ t.result = none

/-- Only FINAL, or a whole command, makes a Result available: no other operation turns STATUS to DONE (R27, R48), and none
changes the Result once produced ("immutable thereafter", R28): the record keeps its contents, and as long as STATUS is DONE the
Result reads as it did, also where the operation writes PQ. That the record is kept apart from PQ is log 28 (DESIGN CHOICE). -/
def Obligations.OnlyFinalMakesDone : Prop :=
  ∀ (i : Instr) (s t : State), exec i s = .next t → i.footprint ≠ .final → i.footprint ≠ .command →
    t.record = s.record ∧ (t.status = .done → s.status = .done ∧ t.result = s.result)
end

