-- ==== Sys2Proof/Laws/Arith.lean ====
section
/-! SUPPORT. The operand functions as exact integer arithmetic (R12, R64): shifts, sign extension, the halves of PQ. -/

namespace Sys2Proof.Machine

variable {w : Nat}

/-- `>>a` is floor division (R12, R80). -/
theorem sar_toInt (s : Nat) (v : BitVec w) : (sar s v).toInt = v.toInt / 2 ^ s := by
  rw [sar, BitVec.toInt_sshiftRight, Int.shiftRight_eq_div_pow]; norm_cast

@[simp] theorem sar_zero_amount (v : BitVec w) : sar 0 v = v := by
  simp [sar, BitVec.sshiftRight_zero]

@[simp] theorem sar_zero_value (s : Nat) : sar s (0 : BitVec w) = 0 := by
  simp [sar, BitVec.zero_sshiftRight]

/-- The signed high half is the floor quotient (R75). -/
theorem highHalf_eq_div (n : Nat) (pq : BitVec w) : highHalf n pq = pq.toInt / 2 ^ n := by
  rw [highHalf, Int.shiftRight_eq_div_pow]; norm_cast

/-- Below `2^n` (R76). -/
theorem lowHalf_lt (n : Nat) (pq : BitVec w) : lowHalf n pq < 2 ^ n := Nat.mod_lt _ (by positivity)

/-- The low half is the signed remainder too, where the boundary lies inside the register (R18). -/
theorem lowHalf_eq_emod (n : Nat) (h : n ≤ w) (pq : BitVec w) : (lowHalf n pq : Int) = pq.toInt % 2 ^ n := by
  have hd : (2 : Int) ^ n ∣ 2 ^ w := pow_dvd_pow 2 h
  rw [lowHalf, BitVec.toInt_eq_toNat_bmod]
  have : ((pq.toNat : Int).bmod (2 ^ w)) % 2 ^ n = (pq.toNat : Int) % 2 ^ n := by
    rw [Int.bmod_def]
    push_cast
    split
    · rw [Int.emod_emod_of_dvd _ hd]
    · rw [Int.sub_emod, Int.emod_emod_of_dvd _ hd, Int.emod_eq_zero_of_dvd hd]; simp
  rw [this]; push_cast; rfl

/-- `PQ = HIGH * 2^n + LOW` (R18). -/
theorem halves_sum (n : Nat) (h : n ≤ w) (pq : BitVec w) : highHalf n pq * 2 ^ n + lowHalf n pq = pq.toInt := by
  rw [highHalf_eq_div, lowHalf_eq_emod n h, mul_comm]; exact Int.mul_ediv_add_emod _ _

/-- `sext_n` as a balanced remainder (R12). -/
theorem sext_toInt (n : Nat) (h : n ≤ w) (x : BitVec w) : (sext n x).toInt = (x.toNat : Int).bmod (2 ^ n) := by
  have e := Int.emod_bmod (x.toNat : Int) (2 ^ n)
  rw [sext, BitVec.toInt_signExtend_of_le h, BitVec.toInt_eq_toNat_bmod, BitVec.toNat_setWidth]
  push_cast at e ⊢; exact e

/-- The contract of SEXT at the model's width (R62, R63). -/
theorem sextWidthOk_iff (n : Nat) : sextWidthOk W n = true ↔ 1 ≤ n ∧ n ≤ 64 := by
  simp only [sextWidthOk, Bool.and_eq_true, decide_eq_true_eq]

/-- The range of a sign-extended value (R62). -/
theorem sext_toInt_bounds (n : Nat) (h1 : 1 ≤ n) (h : n ≤ w) (x : BitVec w) :
    -(2 ^ (n - 1)) ≤ (sext n x).toInt ∧ (sext n x).toInt ≤ 2 ^ (n - 1) - 1 := by
  obtain ⟨k, rfl⟩ : ∃ k, n = k + 1 := ⟨n - 1, by omega⟩
  rw [sext_toInt _ h]
  have h2 := Int.le_bmod (x := (x.toNat : Int)) (m := 2 ^ (k + 1)) (by positivity)
  have h3 := Int.bmod_lt (x := (x.toNat : Int)) (m := 2 ^ (k + 1)) (by positivity)
  push_cast [pow_succ] at h2 h3 ⊢
  generalize (2 : Int) ^ k = p at *
  omega

/-- SETHI of the sum of the high half and `d` adds `d` at weight `2^n` (the reason behind R78). -/
theorem setHigh_highHalf_add (n : Nat) (d : Int) (pq : BitVec w) :
    setHigh n (highHalf n pq + d) pq = BitVec.ofInt w (pq.toInt + d * 2 ^ n) := by
  rcases Nat.le_total n w with h | h
  · rw [setHigh, add_mul, add_right_comm, halves_sum n h]
  · apply BitVec.eq_of_toInt_eq
    rw [setHigh, BitVec.toInt_ofInt, BitVec.toInt_ofInt]
    have hlow : lowHalf n pq = pq.toNat :=
      Nat.mod_eq_of_lt (lt_of_lt_of_le pq.isLt (Nat.pow_le_pow_right (by norm_num) h))
    obtain ⟨e, rfl⟩ : ∃ e, n = w + e := ⟨n - w, by omega⟩
    rw [hlow]
    have hb : pq.toInt = (pq.toNat : Int) - 2 ^ w * (if 2 * pq.toNat < 2 ^ w then 0 else 1) := by
      rw [BitVec.toInt_eq_toNat_cond]; split <;> simp
    rw [hb]
    apply (Int.bmod_eq_bmod_iff_bmod_sub_eq_zero ..).2
    apply Int.bmod_eq_zero_of_dvd ..
    refine ⟨(highHalf (w + e) pq + d) * 2 ^ e - d * 2 ^ e + (if 2 * pq.toNat < 2 ^ w then 0 else 1), ?_⟩
    push_cast [pow_add]; ring

/-- PQ.ACC adds the multiple at weight `2^n` (R79). -/
theorem accumulate_eq (n : Nat) (c : Int) (a pq : BitVec w) :
    accumulate n c a pq = BitVec.ofInt w (pq.toInt + c * a.toInt * 2 ^ n) := by
  rw [accumulate, setHigh_highHalf_add]

end Sys2Proof.Machine
end

