-- ==== Sys2Proof/Laws/Booth.lean ====
section
/-! SUPPORT. The recoders as integer arithmetic: a coefficient is the difference between the rounded half of the multiplier
copy before the shift and `2^k` times the rounded half after it. -/

namespace Sys2Proof

open Machine

/-- Four low bits decide the coefficient (R65): a wider register has the window of its value. -/
theorem recode_eq_ofInt {w : Nat} (h : 4 ≤ w) (r : Radix) (q : BitVec w) :
    recode r q = recode r (BitVec.ofInt 4 q.toInt) := by
  have e : (BitVec.ofInt 4 q.toInt) = q.extractLsb' 0 4 := by
    apply BitVec.eq_of_toNat_eq
    have hd : ((2 : Int) ^ 4) ∣ 2 ^ w := pow_dvd_pow 2 h
    rw [BitVec.toNat_ofInt, BitVec.extractLsb'_toNat, BitVec.toInt_eq_toNat_bmod, Int.bmod_def]
    push_cast
    have : (if (q.toNat : Int) % 2 ^ w < (2 ^ w + 1) / 2 then (q.toNat : Int) % 2 ^ w else (q.toNat : Int) % 2 ^ w - 2 ^ w)
        % 2 ^ 4 = (q.toNat : Int) % 2 ^ 4 := by
      split
      · rw [Int.emod_emod_of_dvd _ hd]
      · rw [Int.sub_emod, Int.emod_emod_of_dvd _ hd, Int.emod_eq_zero_of_dvd hd]; simp
    rw [show (16 : Int) = 2 ^ 4 by norm_num, this]; simp; omega
  rw [e]
  cases r
  all_goals
    simp only [recode]; congr 1
    apply BitVec.eq_of_toNat_eq
    simp only [BitVec.extractLsb'_toNat, Nat.shiftRight_zero]
    omega

/-- The coefficient of the window at the bottom of `q` (R68). -/
theorem recode_ofInt (r : Radix) (q : Int) :
    recode r (BitVec.ofInt 4 q) = (q + 1) / 2 - 2 ^ r.k * ((q / 2 ^ r.k + 1) / 2) := by
  have hm : BitVec.ofInt 4 q = BitVec.ofInt 4 (q % 16) := by
    apply BitVec.eq_of_toInt_eq; simp only [BitVec.toInt_ofInt]; exact (Int.emod_bmod q 16).symm
  obtain ⟨t, m, hq, h0, h1⟩ : ∃ t m : Int, q = 16 * t + m ∧ 0 ≤ m ∧ m < 16 := ⟨q / 16, q % 16, by omega, by omega, by omega⟩
  have hmm : q % 16 = m := by omega
  rw [hm, hmm, hq]
  cases r <;> interval_cases m <;>
    simp [recode, rec4Table, rec8Table, rec4Entries, rec8Entries, Radix.k, BitVec.ofInt] <;> omega

end Sys2Proof
end

