-- ==== Sys2Proof/Laws/Decode.lean ====
section
/-! SUPPORT. Each operand reader of the decoder against the encoder's bytes: what is read back from the bytes written, and
what bytes stood there when a reader went on. -/

namespace Sys2Proof

variable {next : Word → List Byte → Decoded} {rest : List Byte} {d : Instr × List Byte}

/-! ### Words -/

/-- The eight bytes of a word make up the word. -/
theorem wordOfBytes_extract (x : Word) :
    wordOfBytes (x.extractLsb' 0 8) (x.extractLsb' 8 8) (x.extractLsb' 16 8) (x.extractLsb' 24 8) (x.extractLsb' 32 8)
      (x.extractLsb' 40 8) (x.extractLsb' 48 8) (x.extractLsb' 56 8) = x := by
  apply BitVec.eq_of_getLsbD_eq
  intro i hi
  simp only [wordOfBytes, BitVec.getLsbD_append, BitVec.getLsbD_extractLsb']
  repeat' split
  all_goals (rw [show decide _ = true from decide_eq_true (by omega)]; simp only [Bool.true_and]; congr 1; omega)

/-- The bytes of eight bytes' word are the eight bytes. -/
theorem wordBytes_wordOfBytes (b0 b1 b2 b3 b4 b5 b6 b7 : Byte) :
    wordBytes (wordOfBytes b0 b1 b2 b3 b4 b5 b6 b7) = [b0, b1, b2, b3, b4, b5, b6, b7] := by
  simp only [wordBytes, wordOfBytes, List.cons.injEq, and_true]
  refine ⟨?_, ?_, ?_, ?_, ?_, ?_, ?_, ?_⟩ <;> apply BitVec.eq_of_getLsbD_eq <;> intro i hi
  all_goals
    simp only [BitVec.getLsbD_append, BitVec.getLsbD_extractLsb', hi, decide_true, Bool.true_and]
    repeat' split
    all_goals first | omega | (congr 1; omega)

theorem readWord_wordBytes (x : Word) : readWord (wordBytes x ++ rest) next = next x rest := by
  simp [wordBytes, readWord, wordOfBytes_extract]

theorem readWord_ok {bs : List Byte} (h : readWord bs next = .ok d) :
    ∃ x tail, bs = wordBytes x ++ tail ∧ next x tail = .ok d := by
  unfold readWord at h
  split at h
  · exact ⟨_, _, by rw [wordBytes_wordOfBytes]; rfl, h⟩
  · cases h

/-! ### One-byte operands -/

theorem readByte_ok {next : Byte → List Byte → Decoded} {bs : List Byte} (h : readByte bs next = .ok d) :
    ∃ b tail, bs = b :: tail ∧ next b tail = .ok d := by
  cases bs with
  | nil => cases h
  | cons b tail => exact ⟨b, tail, rfl, h⟩

theorem readNat_ofNat {next : Nat → List Byte → Decoded} {n : Nat} (h : fitsByte n = true) :
    readNat (BitVec.ofNat 8 n :: rest) next = next n rest := by
  have h' : n < 256 := by simpa [fitsByte] using h
  simp [readNat, readByte, Nat.mod_eq_of_lt h']

theorem readNat_ok {next : Nat → List Byte → Decoded} {bs : List Byte} (h : readNat bs next = .ok d) :
    ∃ n tail, fitsByte n = true ∧ bs = BitVec.ofNat 8 n :: tail ∧ next n tail = .ok d := by
  obtain ⟨b, tail, rfl, e⟩ := readByte_ok h
  exact ⟨b.toNat, tail, by simpa [fitsByte] using b.isLt, by simp, e⟩

theorem readRadix_radixByte {next : Radix → List Byte → Decoded} (r : Radix) :
    readRadix (radixByte r :: rest) next = next r rest := by cases r <;> rfl

theorem readRadix_ok {next : Radix → List Byte → Decoded} {bs : List Byte} (h : readRadix bs next = .ok d) :
    ∃ r tail, bs = radixByte r :: tail ∧ next r tail = .ok d := by
  obtain ⟨b, tail, rfl, e⟩ := readByte_ok h
  split at e
  · exact ⟨.r4, tail, by rw [‹b = 0›]; rfl, e⟩
  · split at e
    · exact ⟨.r8, tail, by rw [‹b = 1›]; rfl, e⟩
    · cases e

theorem readBool_boolByte {next : Bool → List Byte → Decoded} (x : Bool) :
    readBool (boolByte x :: rest) next = next x rest := by cases x <;> rfl

theorem readBool_ok {next : Bool → List Byte → Decoded} {bs : List Byte} (h : readBool bs next = .ok d) :
    ∃ x tail, bs = boolByte x :: tail ∧ next x tail = .ok d := by
  obtain ⟨b, tail, rfl, e⟩ := readByte_ok h
  split at e
  · exact ⟨false, tail, by rw [‹b = 0›]; rfl, e⟩
  · split at e
    · exact ⟨true, tail, by rw [‹b = 1›]; rfl, e⟩
    · cases e

theorem readBools_map {next : List Bool → List Byte → Decoded} (xs : List Bool) :
    readBools xs.length (xs.map boolByte ++ rest) next = next xs rest := by
  induction xs generalizing next with
  | nil => rfl
  | cons x xs ih => simp [readBools, readBool_boolByte, ih]

theorem readBools_ok {count : Nat} {next : List Bool → List Byte → Decoded} {bs : List Byte}
    (h : readBools count bs next = .ok d) :
    ∃ xs tail, xs.length = count ∧ bs = xs.map boolByte ++ tail ∧ next xs tail = .ok d := by
  induction count generalizing bs next with
  | zero => exact ⟨[], bs, rfl, rfl, h⟩
  | succ c ih =>
    obtain ⟨x, tail, rfl, e⟩ := readBool_ok h
    obtain ⟨xs, tail, rfl, rfl, e'⟩ := ih e
    exact ⟨x :: xs, tail, rfl, rfl, e'⟩

theorem readWindow_setWidth {width : Nat} (hw : width ≤ 8) {next : BitVec width → List Byte → Decoded} (w : BitVec width) :
    readWindow width (w.setWidth 8 :: rest) next = next w rest := by
  have h2 : (2 : Nat) ^ width ≤ 2 ^ 8 := Nat.pow_le_pow_right (by norm_num) hw
  have h1 : (w.setWidth 8).toNat = w.toNat := by
    rw [BitVec.toNat_setWidth, Nat.mod_eq_of_lt (lt_of_lt_of_le w.isLt h2)]
  have h3 : (w.setWidth 8).setWidth width = w := by
    apply BitVec.eq_of_toNat_eq
    rw [BitVec.toNat_setWidth, h1, Nat.mod_eq_of_lt w.isLt]
  simp [readWindow, readByte, h1, h3, w.isLt]

theorem readWindow_ok {width : Nat} (hw : width ≤ 8) {next : BitVec width → List Byte → Decoded} {bs : List Byte}
    (h : readWindow width bs next = .ok d) : ∃ w tail, bs = BitVec.setWidth 8 w :: tail ∧ next w tail = .ok d := by
  obtain ⟨b, tail, rfl, e⟩ := readByte_ok h
  split at e
  · refine ⟨b.setWidth width, tail, ?_, e⟩
    congr 1
    apply BitVec.eq_of_toNat_eq
    have h2 : (2 : Nat) ^ width ≤ 2 ^ 8 := Nat.pow_le_pow_right (by norm_num) hw
    rw [BitVec.toNat_setWidth, BitVec.toNat_setWidth, Nat.mod_eq_of_lt ‹b.toNat < 2 ^ width›, Nat.mod_eq_of_lt b.isLt]
  · cases e

theorem readCoefficient_coefficientByte {next : Int → List Byte → Decoded} {c : Int} (h : isCoefficient c = true) :
    readCoefficient (coefficientByte c :: rest) next = next c rest := by
  have h' : -4 ≤ c ∧ c ≤ 4 := by simpa [isCoefficient] using h
  obtain ⟨h1, h2⟩ := h'
  interval_cases c <;> rfl

theorem readCoefficient_ok {next : Int → List Byte → Decoded} {bs : List Byte} (h : readCoefficient bs next = .ok d) :
    ∃ c tail, isCoefficient c = true ∧ bs = coefficientByte c :: tail ∧ next c tail = .ok d := by
  obtain ⟨b, tail, rfl, e⟩ := readByte_ok h
  split at e
  · split at e
    · refine ⟨_, tail, ‹_›, ?_, e⟩
      congr 1
      apply BitVec.eq_of_toNat_eq
      rw [coefficientByte, BitVec.ofInt_toInt, BitVec.toNat_setWidth, BitVec.toNat_setWidth]
      omega
    · cases e
  · cases e

end Sys2Proof
end

