-- ==== Sys2Proof/Laws/State.lean ====
section
/-! SUPPORT. One lemma per field per update of the state, so that no proof unfolds a record update. -/

namespace Sys2Proof.Machine

@[simp] theorem State.returns_a (s : State) (v : Int) : (s.returns v).a = s.a := rfl
@[simp] theorem State.returns_q (s : State) (v : Int) : (s.returns v).q = s.q := rfl
@[simp] theorem State.returns_pq (s : State) (v : Int) : (s.returns v).pq = s.pq := rfl
@[simp] theorem State.returns_n (s : State) (v : Int) : (s.returns v).n = s.n := rfl
@[simp] theorem State.returns_radix (s : State) (v : Int) : (s.returns v).radix = s.radix := rfl
@[simp] theorem State.returns_phase (s : State) (v : Int) : (s.returns v).phase = s.phase := rfl
@[simp] theorem State.returns_i (s : State) (v : Int) : (s.returns v).i = s.i := rfl
@[simp] theorem State.returns_m (s : State) (v : Int) : (s.returns v).m = s.m := rfl
@[simp] theorem State.returns_adds (s : State) (v : Int) : (s.returns v).adds = s.adds := rfl
@[simp] theorem State.returns_delay (s : State) (v : Int) : (s.returns v).delay = s.delay := rfl
@[simp] theorem State.returns_status (s : State) (v : Int) : (s.returns v).status = s.status := rfl
@[simp] theorem State.returns_cause (s : State) (v : Int) : (s.returns v).cause = s.cause := rfl
@[simp] theorem State.returns_cmd (s : State) (v : Int) : (s.returns v).cmd = s.cmd := rfl
@[simp] theorem State.returns_start (s : State) (v : Int) : (s.returns v).start = s.start := rfl
@[simp] theorem State.returns_ret (s : State) (v : Int) : (s.returns v).ret = some v := rfl
@[simp] theorem State.returns_info (s : State) (v : Int) : (s.returns v).info = s.info := rfl
@[simp] theorem State.returns_ops (s : State) (v : Int) : (s.returns v).ops = s.ops := rfl
@[simp] theorem State.returns_record (s : State) (v : Int) : (s.returns v).record = s.record := rfl

@[simp] theorem State.writePq_a (s : State) (v : Word) : (s.writePq v).a = s.a := rfl
@[simp] theorem State.writePq_q (s : State) (v : Word) : (s.writePq v).q = s.q := rfl
@[simp] theorem State.writePq_pq (s : State) (v : Word) : (s.writePq v).pq = v := rfl
@[simp] theorem State.writePq_n (s : State) (v : Word) : (s.writePq v).n = s.n := rfl
@[simp] theorem State.writePq_radix (s : State) (v : Word) : (s.writePq v).radix = s.radix := rfl
@[simp] theorem State.writePq_phase (s : State) (v : Word) : (s.writePq v).phase = s.phase := rfl
@[simp] theorem State.writePq_i (s : State) (v : Word) : (s.writePq v).i = s.i := rfl
@[simp] theorem State.writePq_m (s : State) (v : Word) : (s.writePq v).m = s.m := rfl
@[simp] theorem State.writePq_adds (s : State) (v : Word) : (s.writePq v).adds = s.adds := rfl
@[simp] theorem State.writePq_delay (s : State) (v : Word) : (s.writePq v).delay = s.delay := rfl
@[simp] theorem State.writePq_status (s : State) (v : Word) : (s.writePq v).status = s.status := rfl
@[simp] theorem State.writePq_cause (s : State) (v : Word) : (s.writePq v).cause = s.cause := rfl
@[simp] theorem State.writePq_cmd (s : State) (v : Word) : (s.writePq v).cmd = s.cmd := rfl
@[simp] theorem State.writePq_start (s : State) (v : Word) : (s.writePq v).start = s.start := rfl
@[simp] theorem State.writePq_ret (s : State) (v : Word) : (s.writePq v).ret = none := rfl
@[simp] theorem State.writePq_info (s : State) (v : Word) : (s.writePq v).info = s.info := rfl
@[simp] theorem State.writePq_ops (s : State) (v : Word) : (s.writePq v).ops = s.ops := rfl
@[simp] theorem State.writePq_record (s : State) (v : Word) : (s.writePq v).record = s.record := rfl

@[simp] theorem State.writeQ_a (s : State) (v : Word) : (s.writeQ v).a = s.a := rfl
@[simp] theorem State.writeQ_q (s : State) (v : Word) : (s.writeQ v).q = v := rfl
@[simp] theorem State.writeQ_pq (s : State) (v : Word) : (s.writeQ v).pq = s.pq := rfl
@[simp] theorem State.writeQ_n (s : State) (v : Word) : (s.writeQ v).n = s.n := rfl
@[simp] theorem State.writeQ_radix (s : State) (v : Word) : (s.writeQ v).radix = s.radix := rfl
@[simp] theorem State.writeQ_phase (s : State) (v : Word) : (s.writeQ v).phase = s.phase := rfl
@[simp] theorem State.writeQ_i (s : State) (v : Word) : (s.writeQ v).i = s.i := rfl
@[simp] theorem State.writeQ_m (s : State) (v : Word) : (s.writeQ v).m = s.m := rfl
@[simp] theorem State.writeQ_adds (s : State) (v : Word) : (s.writeQ v).adds = s.adds := rfl
@[simp] theorem State.writeQ_delay (s : State) (v : Word) : (s.writeQ v).delay = s.delay := rfl
@[simp] theorem State.writeQ_status (s : State) (v : Word) : (s.writeQ v).status = s.status := rfl
@[simp] theorem State.writeQ_cause (s : State) (v : Word) : (s.writeQ v).cause = s.cause := rfl
@[simp] theorem State.writeQ_cmd (s : State) (v : Word) : (s.writeQ v).cmd = s.cmd := rfl
@[simp] theorem State.writeQ_start (s : State) (v : Word) : (s.writeQ v).start = s.start := rfl
@[simp] theorem State.writeQ_ret (s : State) (v : Word) : (s.writeQ v).ret = none := rfl
@[simp] theorem State.writeQ_info (s : State) (v : Word) : (s.writeQ v).info = s.info := rfl
@[simp] theorem State.writeQ_ops (s : State) (v : Word) : (s.writeQ v).ops = s.ops := rfl
@[simp] theorem State.writeQ_record (s : State) (v : Word) : (s.writeQ v).record = s.record := rfl

@[simp] theorem raise_a (c : Cause) (f : FaultInfo) (s : State) : (raise c f s).a = s.a := rfl
@[simp] theorem raise_q (c : Cause) (f : FaultInfo) (s : State) : (raise c f s).q = s.q := rfl
@[simp] theorem raise_pq (c : Cause) (f : FaultInfo) (s : State) : (raise c f s).pq = s.pq := rfl
@[simp] theorem raise_n (c : Cause) (f : FaultInfo) (s : State) : (raise c f s).n = s.n := rfl
@[simp] theorem raise_radix (c : Cause) (f : FaultInfo) (s : State) : (raise c f s).radix = s.radix := rfl
@[simp] theorem raise_phase (c : Cause) (f : FaultInfo) (s : State) : (raise c f s).phase = .fault := rfl
@[simp] theorem raise_i (c : Cause) (f : FaultInfo) (s : State) : (raise c f s).i = s.i := rfl
@[simp] theorem raise_m (c : Cause) (f : FaultInfo) (s : State) : (raise c f s).m = s.m := rfl
@[simp] theorem raise_adds (c : Cause) (f : FaultInfo) (s : State) : (raise c f s).adds = s.adds := rfl
@[simp] theorem raise_delay (c : Cause) (f : FaultInfo) (s : State) : (raise c f s).delay = s.delay := rfl
@[simp] theorem raise_status (c : Cause) (f : FaultInfo) (s : State) : (raise c f s).status = .fault := rfl
@[simp] theorem raise_cause (c : Cause) (f : FaultInfo) (s : State) : (raise c f s).cause = c := rfl
@[simp] theorem raise_cmd (c : Cause) (f : FaultInfo) (s : State) : (raise c f s).cmd = s.cmd := rfl
@[simp] theorem raise_start (c : Cause) (f : FaultInfo) (s : State) : (raise c f s).start = s.start := rfl
@[simp] theorem raise_ret (c : Cause) (f : FaultInfo) (s : State) : (raise c f s).ret = none := rfl
@[simp] theorem raise_info (c : Cause) (f : FaultInfo) (s : State) : (raise c f s).info = f := rfl
@[simp] theorem raise_ops (c : Cause) (f : FaultInfo) (s : State) : (raise c f s).ops = s.ops := rfl
@[simp] theorem raise_record (c : Cause) (f : FaultInfo) (s : State) : (raise c f s).record = s.record := rfl

@[simp] theorem State.accept_a (s : State) : s.accept.a = s.a := rfl
@[simp] theorem State.accept_q (s : State) : s.accept.q = s.q := rfl
@[simp] theorem State.accept_pq (s : State) : s.accept.pq = s.pq := rfl
@[simp] theorem State.accept_n (s : State) : s.accept.n = s.n := rfl
@[simp] theorem State.accept_radix (s : State) : s.accept.radix = s.radix := rfl
@[simp] theorem State.accept_phase (s : State) : s.accept.phase = .init := rfl
@[simp] theorem State.accept_i (s : State) : s.accept.i = s.i := rfl
@[simp] theorem State.accept_m (s : State) : s.accept.m = s.m := rfl
@[simp] theorem State.accept_adds (s : State) : s.accept.adds = s.adds := rfl
@[simp] theorem State.accept_delay (s : State) : s.accept.delay = s.delay := rfl
@[simp] theorem State.accept_status (s : State) : s.accept.status = s.status := rfl
@[simp] theorem State.accept_cause (s : State) : s.accept.cause = s.cause := rfl
@[simp] theorem State.accept_cmd (s : State) : s.accept.cmd = s.cmd := rfl
@[simp] theorem State.accept_start (s : State) : s.accept.start = false := rfl
@[simp] theorem State.accept_ret (s : State) : s.accept.ret = s.ret := rfl
@[simp] theorem State.accept_info (s : State) : s.accept.info = s.info := rfl
@[simp] theorem State.accept_ops (s : State) : s.accept.ops = s.ops := rfl
@[simp] theorem State.accept_record (s : State) : s.accept.record = s.record := rfl

@[simp] theorem State.drive_a (s : State) (c : Command) : (s.drive c).a = s.a := rfl
@[simp] theorem State.drive_q (s : State) (c : Command) : (s.drive c).q = s.q := rfl
@[simp] theorem State.drive_pq (s : State) (c : Command) : (s.drive c).pq = s.pq := rfl
@[simp] theorem State.drive_n (s : State) (c : Command) : (s.drive c).n = s.n := rfl
@[simp] theorem State.drive_radix (s : State) (c : Command) : (s.drive c).radix = s.radix := rfl
@[simp] theorem State.drive_phase (s : State) (c : Command) : (s.drive c).phase = s.phase := rfl
@[simp] theorem State.drive_i (s : State) (c : Command) : (s.drive c).i = s.i := rfl
@[simp] theorem State.drive_m (s : State) (c : Command) : (s.drive c).m = s.m := rfl
@[simp] theorem State.drive_adds (s : State) (c : Command) : (s.drive c).adds = s.adds := rfl
@[simp] theorem State.drive_delay (s : State) (c : Command) : (s.drive c).delay = s.delay := rfl
@[simp] theorem State.drive_status (s : State) (c : Command) : (s.drive c).status = s.status := rfl
@[simp] theorem State.drive_cause (s : State) (c : Command) : (s.drive c).cause = s.cause := rfl
@[simp] theorem State.drive_cmd (s : State) (c : Command) : (s.drive c).cmd = c := rfl
@[simp] theorem State.drive_start (s : State) (c : Command) : (s.drive c).start = s.start := rfl
@[simp] theorem State.drive_ret (s : State) (c : Command) : (s.drive c).ret = s.ret := rfl
@[simp] theorem State.drive_info (s : State) (c : Command) : (s.drive c).info = s.info := rfl
@[simp] theorem State.drive_ops (s : State) (c : Command) : (s.drive c).ops = s.ops := rfl
@[simp] theorem State.drive_record (s : State) (c : Command) : (s.drive c).record = s.record := rfl

@[simp] theorem State.begin_a (s : State) (r : Radix) (n : Nat) : (s.begin r n).a = s.a := rfl
@[simp] theorem State.begin_q (s : State) (r : Radix) (n : Nat) : (s.begin r n).q = s.q := rfl
@[simp] theorem State.begin_pq (s : State) (r : Radix) (n : Nat) : (s.begin r n).pq = s.pq := rfl
@[simp] theorem State.begin_n (s : State) (r : Radix) (n : Nat) : (s.begin r n).n = n := rfl
@[simp] theorem State.begin_radix (s : State) (r : Radix) (n : Nat) : (s.begin r n).radix = r := rfl
@[simp] theorem State.begin_phase (s : State) (r : Radix) (n : Nat) : (s.begin r n).phase = .iter := rfl
@[simp] theorem State.begin_i (s : State) (r : Radix) (n : Nat) : (s.begin r n).i = 0 := rfl
@[simp] theorem State.begin_m (s : State) (r : Radix) (n : Nat) : (s.begin r n).m = r.iterations n := rfl
@[simp] theorem State.begin_adds (s : State) (r : Radix) (n : Nat) : (s.begin r n).adds = s.adds := rfl
@[simp] theorem State.begin_delay (s : State) (r : Radix) (n : Nat) : (s.begin r n).delay = s.delay := rfl
@[simp] theorem State.begin_status (s : State) (r : Radix) (n : Nat) : (s.begin r n).status = .busy := rfl
@[simp] theorem State.begin_cause (s : State) (r : Radix) (n : Nat) : (s.begin r n).cause = .none := rfl
@[simp] theorem State.begin_cmd (s : State) (r : Radix) (n : Nat) : (s.begin r n).cmd = s.cmd := rfl
@[simp] theorem State.begin_start (s : State) (r : Radix) (n : Nat) : (s.begin r n).start = s.start := rfl
@[simp] theorem State.begin_ret (s : State) (r : Radix) (n : Nat) : (s.begin r n).ret = s.ret := rfl
@[simp] theorem State.begin_info (s : State) (r : Radix) (n : Nat) : (s.begin r n).info = .none := rfl
@[simp] theorem State.begin_ops (s : State) (r : Radix) (n : Nat) : (s.begin r n).ops = s.ops := rfl
@[simp] theorem State.begin_record (s : State) (r : Radix) (n : Nat) : (s.begin r n).record = s.record := rfl

@[simp] theorem State.advance_a (s : State) : s.advance.a = s.a := rfl
@[simp] theorem State.advance_q (s : State) : s.advance.q = s.q := rfl
@[simp] theorem State.advance_pq (s : State) : s.advance.pq = s.pq := rfl
@[simp] theorem State.advance_n (s : State) : s.advance.n = s.n := rfl
@[simp] theorem State.advance_radix (s : State) : s.advance.radix = s.radix := rfl
@[simp] theorem State.advance_phase (s : State) : s.advance.phase = if s.i + 1 = s.m then .final else s.phase := rfl
@[simp] theorem State.advance_i (s : State) : s.advance.i = s.i + 1 := rfl
@[simp] theorem State.advance_m (s : State) : s.advance.m = s.m := rfl
@[simp] theorem State.advance_adds (s : State) : s.advance.adds = s.adds := rfl
@[simp] theorem State.advance_delay (s : State) : s.advance.delay = s.delay := rfl
@[simp] theorem State.advance_status (s : State) : s.advance.status = s.status := rfl
@[simp] theorem State.advance_cause (s : State) : s.advance.cause = s.cause := rfl
@[simp] theorem State.advance_cmd (s : State) : s.advance.cmd = s.cmd := rfl
@[simp] theorem State.advance_start (s : State) : s.advance.start = s.start := rfl
@[simp] theorem State.advance_ret (s : State) : s.advance.ret = s.ret := rfl
@[simp] theorem State.advance_info (s : State) : s.advance.info = s.info := rfl
@[simp] theorem State.advance_ops (s : State) : s.advance.ops = s.ops := rfl
@[simp] theorem State.advance_record (s : State) : s.advance.record = s.record := rfl

@[simp] theorem State.withDatapath_a (s : State) (d : Datapath 64) : (s.withDatapath d).a = d.a := rfl
@[simp] theorem State.withDatapath_q (s : State) (d : Datapath 64) : (s.withDatapath d).q = d.q := rfl
@[simp] theorem State.withDatapath_pq (s : State) (d : Datapath 64) : (s.withDatapath d).pq = d.pq := rfl
@[simp] theorem State.withDatapath_n (s : State) (d : Datapath 64) : (s.withDatapath d).n = s.n := rfl
@[simp] theorem State.withDatapath_radix (s : State) (d : Datapath 64) : (s.withDatapath d).radix = s.radix := rfl
@[simp] theorem State.withDatapath_phase (s : State) (d : Datapath 64) : (s.withDatapath d).phase = s.phase := rfl
@[simp] theorem State.withDatapath_i (s : State) (d : Datapath 64) : (s.withDatapath d).i = s.i := rfl
@[simp] theorem State.withDatapath_m (s : State) (d : Datapath 64) : (s.withDatapath d).m = s.m := rfl
@[simp] theorem State.withDatapath_adds (s : State) (d : Datapath 64) : (s.withDatapath d).adds = d.adds := rfl
@[simp] theorem State.withDatapath_delay (s : State) (d : Datapath 64) : (s.withDatapath d).delay = d.delay := rfl
@[simp] theorem State.withDatapath_status (s : State) (d : Datapath 64) : (s.withDatapath d).status = s.status := rfl
@[simp] theorem State.withDatapath_cause (s : State) (d : Datapath 64) : (s.withDatapath d).cause = s.cause := rfl
@[simp] theorem State.withDatapath_cmd (s : State) (d : Datapath 64) : (s.withDatapath d).cmd = s.cmd := rfl
@[simp] theorem State.withDatapath_start (s : State) (d : Datapath 64) : (s.withDatapath d).start = s.start := rfl
@[simp] theorem State.withDatapath_ret (s : State) (d : Datapath 64) : (s.withDatapath d).ret = none := rfl
@[simp] theorem State.withDatapath_info (s : State) (d : Datapath 64) : (s.withDatapath d).info = s.info := rfl
@[simp] theorem State.withDatapath_ops (s : State) (d : Datapath 64) : (s.withDatapath d).ops = s.ops := rfl
@[simp] theorem State.withDatapath_record (s : State) (d : Datapath 64) : (s.withDatapath d).record = s.record := rfl

@[simp] theorem finalStep_a (r : Radix) (s : State) : (finalStep r s).a = s.a := rfl
@[simp] theorem finalStep_q (r : Radix) (s : State) : (finalStep r s).q = s.q := rfl
@[simp] theorem finalStep_pq (r : Radix) (s : State) : (finalStep r s).pq = sar (r.finalShift s.n) s.pq := rfl
@[simp] theorem finalStep_n (r : Radix) (s : State) : (finalStep r s).n = s.n := rfl
@[simp] theorem finalStep_radix (r : Radix) (s : State) : (finalStep r s).radix = s.radix := rfl
@[simp] theorem finalStep_phase (r : Radix) (s : State) : (finalStep r s).phase = .done := rfl
@[simp] theorem finalStep_i (r : Radix) (s : State) : (finalStep r s).i = s.i := rfl
@[simp] theorem finalStep_m (r : Radix) (s : State) : (finalStep r s).m = s.m := rfl
@[simp] theorem finalStep_adds (r : Radix) (s : State) : (finalStep r s).adds = s.adds := rfl
@[simp] theorem finalStep_delay (r : Radix) (s : State) : (finalStep r s).delay = s.delay := rfl
@[simp] theorem finalStep_status (r : Radix) (s : State) : (finalStep r s).status = .done := rfl
@[simp] theorem finalStep_cause (r : Radix) (s : State) : (finalStep r s).cause = s.cause := rfl
@[simp] theorem finalStep_cmd (r : Radix) (s : State) : (finalStep r s).cmd = s.cmd := rfl
@[simp] theorem finalStep_start (r : Radix) (s : State) : (finalStep r s).start = s.start := rfl
@[simp] theorem finalStep_ret (r : Radix) (s : State) : (finalStep r s).ret = none := rfl
@[simp] theorem finalStep_info (r : Radix) (s : State) : (finalStep r s).info = s.info := rfl
@[simp] theorem finalStep_ops (r : Radix) (s : State) : (finalStep r s).ops = s.ops := rfl

/-! The Result produced -/

@[simp] theorem State.produce_a (s : State) : s.produce.a = s.a := rfl
@[simp] theorem State.produce_q (s : State) : s.produce.q = s.q := rfl
@[simp] theorem State.produce_pq (s : State) : s.produce.pq = s.pq := rfl
@[simp] theorem State.produce_n (s : State) : s.produce.n = s.n := rfl
@[simp] theorem State.produce_radix (s : State) : s.produce.radix = s.radix := rfl
@[simp] theorem State.produce_phase (s : State) : s.produce.phase = .done := rfl
@[simp] theorem State.produce_i (s : State) : s.produce.i = s.i := rfl
@[simp] theorem State.produce_m (s : State) : s.produce.m = s.m := rfl
@[simp] theorem State.produce_adds (s : State) : s.produce.adds = s.adds := rfl
@[simp] theorem State.produce_delay (s : State) : s.produce.delay = s.delay := rfl
@[simp] theorem State.produce_status (s : State) : s.produce.status = .done := rfl
@[simp] theorem State.produce_cause (s : State) : s.produce.cause = s.cause := rfl
@[simp] theorem State.produce_cmd (s : State) : s.produce.cmd = s.cmd := rfl
@[simp] theorem State.produce_start (s : State) : s.produce.start = s.start := rfl
@[simp] theorem State.produce_record (s : State) : s.produce.record = s.readResult := rfl
@[simp] theorem State.produce_ret (s : State) : s.produce.ret = none := rfl
@[simp] theorem State.produce_info (s : State) : s.produce.info = s.info := rfl
@[simp] theorem State.produce_ops (s : State) : s.produce.ops = s.ops := rfl

/-! The datapath read out of a state -/

@[simp] theorem State.datapath_a (s : State) : s.datapath.a = s.a := rfl
@[simp] theorem State.datapath_q (s : State) : s.datapath.q = s.q := rfl
@[simp] theorem State.datapath_pq (s : State) : s.datapath.pq = s.pq := rfl
@[simp] theorem State.datapath_adds (s : State) : s.datapath.adds = s.adds := rfl
@[simp] theorem State.datapath_delay (s : State) : s.datapath.delay = s.delay := rfl
@[simp] theorem State.datapath_withDatapath (s : State) (d : Datapath 64) : (s.withDatapath d).datapath = d := rfl

/-! The Result as read from a state -/

theorem State.result_of_done (s : State) (h : s.status = .done) : s.result = some s.record := if_pos h

theorem State.result_of_not_done (s : State) (h : s.status ≠ .done) : s.result = none := if_neg h

/-- The Result that FINAL produces, in terms of the state it began in (R28, R91, R102). -/
@[simp] theorem finalStep_record (r : Radix) (s : State) :
    (finalStep r s).record = { product := (sar (r.finalShift s.n) s.pq).toInt, iterations := s.m, additions := s.adds,
                               delay := s.delay } := rfl

@[simp] theorem finalStep_result (r : Radix) (s : State) : (finalStep r s).result = some (finalStep r s).record := rfl

@[simp] theorem raise_result (c : Cause) (f : FaultInfo) (s : State) : (raise c f s).result = none := rfl

theorem State.outputs_eq (s t : State) (h1 : s.status = t.status) (h2 : s.cause = t.cause) (h3 : s.result = t.result) :
    s.outputs = t.outputs := by
  simp [State.outputs, h1, h2, h3]

end Sys2Proof.Machine
end

