-- ==== Sys2Proof/Laws/Fetch.lean ====
section
/-! SUPPORT. What the fetch selects, once for each way it can select (R22, R47, R55). -/

namespace Sys2Proof.Machine

theorem fetchOp_of_decode {s : State} {i : Instr} {rest : List Byte} (h : decode s.ops = .ok (i, rest)) :
    fetchOp s = .run i { s with ops := rest } := by
  have hne : s.ops ≠ [] := by intro e; rw [e] at h; cases h
  rw [fetchOp, if_neg hne, h]

/-- Everything the fetch can select: nothing, a stop, INIT of a command, or the operation that the phase or the lined-up bytes
give. -/
theorem fetch_run_cases {s s' : State} {i : Instr} (h : fetch s = .run i s') :
    (s.start = true ∧ s.status ≠ .busy ∧ i = initInstr s.cmd.radix ∧ s' = s.accept) ∨
    (s.start = false ∧ s.phase = .init ∧ i = initInstr s.cmd.radix ∧ s' = s) ∨
    (s.start = false ∧ s.phase = .iter ∧ i = iterInstr s.radix ∧ s' = s) ∨
    (s.start = false ∧ s.phase = .final ∧ i = finalInstr s.radix ∧ s' = s) ∨
    (s.start = false ∧ (s.phase = .idle ∨ s.phase = .done ∨ s.phase = .fault) ∧
      ∃ rest, decode s.ops = .ok (i, rest) ∧ s' = { s with ops := rest }) := by
  have rest : fetchOp s = .run i s' → ∃ rest, decode s.ops = .ok (i, rest) ∧ s' = { s with ops := rest } := by
    intro e
    unfold fetchOp at e
    split at e
    · cases e
    · split at e
      · cases e; exact ⟨_, ‹_›, rfl⟩
      · cases e
  unfold fetch at h
  split at h
  · split at h
    · cases h
    · cases h; exact .inl ⟨‹_›, ‹_›, rfl, rfl⟩
  · have hs : s.start = false := by simpa using ‹¬ s.start = true›
    split at h
    · cases h; exact .inr (.inl ⟨hs, ‹_›, rfl, rfl⟩)
    · cases h; exact .inr (.inr (.inl ⟨hs, ‹_›, rfl, rfl⟩))
    · cases h; exact .inr (.inr (.inr (.inl ⟨hs, ‹_›, rfl, rfl⟩)))
    · exact .inr (.inr (.inr (.inr ⟨hs, .inl ‹_›, rest h⟩)))
    · exact .inr (.inr (.inr (.inr ⟨hs, .inr (.inl ‹_›), rest h⟩)))
    · exact .inr (.inr (.inr (.inr ⟨hs, .inr (.inr ‹_›), rest h⟩)))

/-- A step that answers a next state: the block waited, or it ran what the fetch selected. -/
theorem step_next_cases {s t : State} (h : step s = .next t) :
    (fetch s = .wait ∧ t = s) ∨ ∃ i s', fetch s = .run i s' ∧ exec i s' = .next t := by
  unfold step at h
  split at h
  · cases h; exact .inl ⟨‹_›, rfl⟩
  · cases h
  · cases h
  · exact .inr ⟨_, _, ‹_›, h⟩

end Sys2Proof.Machine
end

