-- ==== Sys2Proof/Laws/Ops.lean ====
section
/-! SUPPORT. For each shared operation, once, everything it can do: the checks of INIT, the three steps of the sequencer, a
whole command, and the operations that hand a delay back. -/

namespace Sys2Proof.Machine

variable {w : Nat}

/-! ### Supported widths and the delay table -/

theorem mem_supportedWidths (n : Nat) : n ∈ supportedWidths ↔ n = 4 ∨ n = 6 ∨ n = 8 ∨ n = 10 ∨ n = 12 := by
  simp [supportedWidths]

/-- The delay table knows exactly the supported widths (R7, R113). -/
theorem carrySelectDelay_none_iff (n : Nat) : carrySelectDelay delayConfig n = none ↔ n ∉ supportedWidths := by
  rw [mem_supportedWidths]
  by_cases h : n = 4 ∨ n = 6 ∨ n = 8 ∨ n = 10 ∨ n = 12
  · rcases h with rfl | rfl | rfl | rfl | rfl <;> decide
  · simp only [not_or] at h
    obtain ⟨h1, h2, h3, h4, h5⟩ := h
    simp [carrySelectDelay, delayConfig, List.lookup, h1, h2, h3, h4, h5, beq_eq_false_iff_ne.2]

theorem carrySelectDelay_of_supported {n : Nat} (h : n ∈ supportedWidths) :
    ∃ csd, carrySelectDelay delayConfig n = some csd := by
  cases e : carrySelectDelay delayConfig n with
  | none => exact absurd h ((carrySelectDelay_none_iff n).1 e)
  | some csd => exact ⟨csd, rfl⟩

theorem iterDelay_of_supported {n : Nat} (h : n ∈ supportedWidths) (r : Radix) (add : Bool) :
    ∃ d, iterDelay delayConfig r n add = some d := by
  obtain ⟨csd, e⟩ := carrySelectDelay_of_supported h
  exact ⟨_, by rw [iterDelay, e]; rfl⟩

theorem preDelay_of_supported {n : Nat} (h : n ∈ supportedWidths) (r : Radix) :
    ∃ d, preDelay delayConfig r n = some d := by
  obtain ⟨csd, e⟩ := carrySelectDelay_of_supported h
  cases r
  · exact ⟨_, rfl⟩
  · exact ⟨_, by rw [preDelay, e]; rfl⟩

theorem iterDelay_of_unsupported {n : Nat} (h : n ∉ supportedWidths) (r : Radix) (add : Bool) :
    iterDelay delayConfig r n add = none := by
  rw [iterDelay, (carrySelectDelay_none_iff n).2 h]; rfl

/-! ### The checks of INIT (R123 to R126) -/

theorem checkCommand_of_unsupported {n : Nat} (h : n ∉ supportedWidths) (a b : BitVec w) :
    checkCommand n a b = some (.unsupportedWidth, .width n) := by rw [checkCommand, if_neg h]

theorem checkCommand_of_operands {n : Nat} (h : n ∈ supportedWidths) (a b : BitVec w)
    (hab : ¬ (operandFits n a = true ∧ operandFits n b = true)) :
    checkCommand n a b = some (.operandRange, .operands (!operandFits n a) (!operandFits n b)) := by
  rw [checkCommand, if_pos h, if_neg (by simpa using hab)]

theorem checkCommand_none_iff (n : Nat) (a b : BitVec w) : checkCommand n a b = none ↔ Acceptable n a b := by
  unfold checkCommand Acceptable
  split <;> rename_i h <;> simp [h]

theorem checkCommand_cause {n : Nat} {a b : BitVec w} {c : Cause} {f : FaultInfo} (h : checkCommand n a b = some (c, f)) :
    c = if n ∈ supportedWidths then .operandRange else .unsupportedWidth := by
  unfold checkCommand at h
  split at h <;> rename_i hn
  · split at h
    · cases h
    · cases h; simp [hn]
  · cases h; simp [hn]

/-! ### The sequencer's steps -/

/-- INIT of a command it rejects takes the fault and writes nothing else (R127). -/
theorem initStep_of_rejected (r : Radix) (s : State) {c : Cause} {f : FaultInfo}
    (h : checkCommand s.cmd.width.toNat s.cmd.multiplicand s.cmd.multiplier = some (c, f)) :
    initStep r s = raise c f s := by rw [initStep, h]

/-- INIT of a command it accepts (R87, R99). -/
theorem initStep_of_acceptable (r : Radix) (s : State) (h : s.cmd.acceptable) :
    ∃ pre, preDelay delayConfig r s.cmd.width.toNat = some pre ∧
      initStep r s = (s.withDatapath
        { a := sext s.cmd.width.toNat s.cmd.multiplicand, q := loadMultiplier s.cmd.width.toNat s.cmd.multiplier, pq := 0,
          adds := 0, delay := pre }).begin r s.cmd.width.toNat := by
  obtain ⟨pre, hp⟩ := preDelay_of_supported h.1 r
  refine ⟨pre, hp, ?_⟩
  rw [initStep, (checkCommand_none_iff ..).2 h]
  simp [Datapath.load, hp]

/-- ITER at a supported width (R88, R100). -/
theorem iterStep_of_supported (r : Radix) (s : State) (h : s.n ∈ supportedWidths) :
    ∃ d, iterDelay delayConfig r s.n (addsMultiple (recode r s.q)) = some d ∧
      iterStep r s = (s.withDatapath
        { a := s.a, q := sar r.k s.q,
          pq := if addsMultiple (recode r s.q) then accumulate s.n (recode r s.q) s.a (sar r.k s.pq) else sar r.k s.pq,
          adds := if addsMultiple (recode r s.q) then s.adds + 1 else s.adds,
          delay := s.delay + d + if s.i + 1 = s.m then 0 else delayConfig.latchDelay }).advance := by
  obtain ⟨d, hd⟩ := iterDelay_of_supported h r (addsMultiple (recode r s.q))
  refine ⟨d, hd, ?_⟩
  simp only [iterStep, Datapath.iterate, State.datapath_a, State.datapath_q, State.datapath_pq, State.datapath_adds,
    State.datapath_delay, hd, Option.map_some, decide_eq_true_eq]
  rfl

/-- ITER at a width outside the delay table. [log 18] -/
theorem iterStep_of_unsupported (r : Radix) (s : State) (h : s.n ∉ supportedWidths) :
    iterStep r s = raise .unsupportedWidth (.width s.n) s := by
  simp [iterStep, Datapath.iterate, iterDelay_of_unsupported h]

/-! ### Whole commands -/

/-- A command that INIT rejects: the ports are driven, START is taken, the fault is taken (R125, R127). -/
theorem runCommand_of_rejected (c : Command) (s : State) {e : Cause} {f : FaultInfo}
    (h : checkCommand c.width.toNat c.multiplicand c.multiplier = some (e, f)) :
    runCommand c s = raise e f (s.drive c).accept := by
  have hi : initStep c.radix (s.drive c).accept = raise e f (s.drive c).accept := initStep_of_rejected _ _ h
  rw [runCommand, hi]; rfl

/-- A command that INIT accepts: INIT, M iterations, FINAL (R86, R98). -/
theorem runCommand_of_acceptable (c : Command) (s : State) (h : c.acceptable) :
    runCommand c s = finalStep c.radix (iterSteps c.radix (c.radix.iterations c.width.toNat)
      (initStep c.radix (s.drive c).accept)) := by
  obtain ⟨pre, _, hi⟩ := initStep_of_acceptable c.radix (s.drive c).accept h
  have hs : (initStep c.radix (s.drive c).accept).status = .busy := by rw [hi]; rfl
  have hm : (initStep c.radix (s.drive c).accept).m = c.radix.iterations c.width.toNat := by rw [hi]; rfl
  simp only [runCommand, hs, hm]; rfl

/-- A command that INIT accepts produces the Result as its registers read (R28). -/
theorem runCommand_record_of_acceptable (c : Command) (s : State) (h : c.acceptable) :
    (runCommand c s).record = (runCommand c s).readResult := by
  rw [runCommand_of_acceptable c s h]; rfl

/-- Issuing a command: stuck while BUSY, a next state otherwise (R55, U10). -/
theorem issueCommand_of_not_busy (c : Command) (s : State) (h : s.status ≠ .busy) :
    issueCommand c s = .next (runCommand c s) := if_neg h

theorem issueCommand_of_busy (c : Command) (s : State) (h : s.status = .busy) :
    issueCommand c s = .fault .startWhileBusy := if_pos h

theorem issueCommand_next {c : Command} {s t : State} (h : issueCommand c s = .next t) :
    s.status ≠ .busy ∧ t = runCommand c s := by
  unfold issueCommand at h
  split at h
  · cases h
  · cases h; exact ⟨‹_›, rfl⟩

/-- What a sequencer step answers when it answers a next state. -/
theorem seqInit_next {r : Radix} {s t : State} (h : seqInit r s = .next t) :
    s.phase = .init ∧ s.cmd.radix = r ∧ t = initStep r s := by
  unfold seqInit at h
  split at h
  · cases h; exact ⟨(‹_ ∧ _› : _ ∧ _).1, (‹_ ∧ _› : _ ∧ _).2, rfl⟩
  · cases h

theorem seqIter_next {r : Radix} {s t : State} (h : seqIter r s = .next t) :
    s.phase = .iter ∧ s.i < s.m ∧ t = iterStep r s := by
  unfold seqIter at h
  split at h
  · cases h; exact ⟨(‹_ ∧ _› : _ ∧ _).1, (‹_ ∧ _› : _ ∧ _).2, rfl⟩
  · cases h

theorem seqFinal_next {r : Radix} {s t : State} (h : seqFinal r s = .next t) :
    s.phase = .final ∧ t = finalStep r s := by
  unfold seqFinal at h
  split at h
  · cases h; exact ⟨‹_›, rfl⟩
  · cases h

/-- A delay is handed back, or UnsupportedWidth is raised (R113, R132). -/
theorem returnsDelay_cases (n : Nat) (d : Option Nat) (s : State) :
    (∃ v, d = some v ∧ returnsDelay n d s = s.returns v) ∨
    (d = none ∧ returnsDelay n d s = raise .unsupportedWidth (.width n) s) := by
  cases d with
  | none => exact .inr ⟨rfl, rfl⟩
  | some v => exact .inl ⟨v, rfl, rfl⟩

end Sys2Proof.Machine
end

