-- ==== Sys2Proof/Laws/PerInstr.lean ====
section
/-! SUPPORT. A statement about every operation as syntax, one lemma per constructor: a well-formed operation has bytes, and
never more than `longestOperation`, the number of zero bytes `decodeTableWord` supplies (log 6, log 21). -/

namespace Sys2Proof.Laws.EncodedLength

/-- A well-formed operation takes at least one byte and at most `longestOperation`. -/
def Statement (i : Instr) : Prop :=
  i.wellFormed = true → 1 ≤ (encode i).length ∧ (encode i).length ≤ longestOperation

theorem dlyTotal (r : Radix) (n : Nat) (adds : List Bool) : Statement (.dlyTotal r n adds) := by
  intro h
  simp only [Instr.wellFormed, fitsByte, Bool.and_eq_true, decide_eq_true_eq, beq_iff_eq] at h
  have hm : r.iterations n ≤ 128 := by cases r <;> simp only [Radix.iterations, Radix.k] <;> omega
  simp only [encode, List.length_cons, List.length_map, longestOperation]
  omega

theorem mul4 (a b : Word) (w : BitVec 8) : Statement (.mul4 a b w) := by simp [Statement, encode, longestOperation, wordBytes]
theorem mul8 (a b : Word) (w : BitVec 8) : Statement (.mul8 a b w) := by simp [Statement, encode, longestOperation, wordBytes]
theorem sext (x : Word) (n : Nat) : Statement (.sext x n) := by simp [Statement, encode, longestOperation, wordBytes]
theorem rec4 (w : BitVec 3) : Statement (.rec4 w) := by simp [Statement, encode, longestOperation]
theorem rec8 (w : BitVec 4) : Statement (.rec8 w) := by simp [Statement, encode, longestOperation]
theorem pqClr : Statement (.pqClr) := by simp [Statement, encode, longestOperation]
theorem pqHigh : Statement (.pqHigh) := by simp [Statement, encode, longestOperation]
theorem pqLow : Statement (.pqLow) := by simp [Statement, encode, longestOperation]
theorem pqSetHi (v : Int) : Statement (.pqSetHi v) := by simp [Statement, encode, longestOperation, wordBytes]
theorem pqAcc (c : Int) : Statement (.pqAcc c) := by simp [Statement, encode, longestOperation]
theorem pqSar (k : Nat) : Statement (.pqSar k) := by simp [Statement, encode, longestOperation]
theorem pqValue : Statement (.pqValue) := by simp [Statement, encode, longestOperation]
theorem qLoad (x : Word) (n : Nat) : Statement (.qLoad x n) := by simp [Statement, encode, longestOperation, wordBytes]
theorem qSar (k : Nat) : Statement (.qSar k) := by simp [Statement, encode, longestOperation]
theorem dlyCpl (n : Nat) : Statement (.dlyCpl n) := by simp [Statement, encode, longestOperation]
theorem dlyMux (k : Nat) : Statement (.dlyMux k) := by simp [Statement, encode, longestOperation]
theorem dlyCsel (n : Nat) : Statement (.dlyCsel n) := by simp [Statement, encode, longestOperation]
theorem dlyLatch : Statement (.dlyLatch) := by simp [Statement, encode, longestOperation]
theorem dlyPre (r : Radix) (n : Nat) : Statement (.dlyPre r n) := by simp [Statement, encode, longestOperation]
theorem dlyIter (r : Radix) (n : Nat) (add : Bool) : Statement (.dlyIter r n add) := by simp [Statement, encode, longestOperation]
theorem seqInit4 : Statement (.seqInit4) := by simp [Statement, encode, longestOperation]
theorem seqIter4 : Statement (.seqIter4) := by simp [Statement, encode, longestOperation]
theorem seqFinal4 : Statement (.seqFinal4) := by simp [Statement, encode, longestOperation]
theorem seqInit8 : Statement (.seqInit8) := by simp [Statement, encode, longestOperation]
theorem seqIter8 : Statement (.seqIter8) := by simp [Statement, encode, longestOperation]
theorem seqFinal8 : Statement (.seqFinal8) := by simp [Statement, encode, longestOperation]
theorem rec4w000 : Statement (.rec4w000) := by simp [Statement, encode, longestOperation]
theorem rec4w001 : Statement (.rec4w001) := by simp [Statement, encode, longestOperation]
theorem rec4w010 : Statement (.rec4w010) := by simp [Statement, encode, longestOperation]
theorem rec4w011 : Statement (.rec4w011) := by simp [Statement, encode, longestOperation]
theorem rec4w100 : Statement (.rec4w100) := by simp [Statement, encode, longestOperation]
theorem rec4w101 : Statement (.rec4w101) := by simp [Statement, encode, longestOperation]
theorem rec4w110 : Statement (.rec4w110) := by simp [Statement, encode, longestOperation]
theorem rec4w111 : Statement (.rec4w111) := by simp [Statement, encode, longestOperation]
theorem rec8w0000 : Statement (.rec8w0000) := by simp [Statement, encode, longestOperation]
theorem rec8w0001 : Statement (.rec8w0001) := by simp [Statement, encode, longestOperation]
theorem rec8w0010 : Statement (.rec8w0010) := by simp [Statement, encode, longestOperation]
theorem rec8w0011 : Statement (.rec8w0011) := by simp [Statement, encode, longestOperation]
theorem rec8w0100 : Statement (.rec8w0100) := by simp [Statement, encode, longestOperation]
theorem rec8w0101 : Statement (.rec8w0101) := by simp [Statement, encode, longestOperation]
theorem rec8w0110 : Statement (.rec8w0110) := by simp [Statement, encode, longestOperation]
theorem rec8w0111 : Statement (.rec8w0111) := by simp [Statement, encode, longestOperation]
theorem rec8w1000 : Statement (.rec8w1000) := by simp [Statement, encode, longestOperation]
theorem rec8w1001 : Statement (.rec8w1001) := by simp [Statement, encode, longestOperation]
theorem rec8w1010 : Statement (.rec8w1010) := by simp [Statement, encode, longestOperation]
theorem rec8w1011 : Statement (.rec8w1011) := by simp [Statement, encode, longestOperation]
theorem rec8w1100 : Statement (.rec8w1100) := by simp [Statement, encode, longestOperation]
theorem rec8w1101 : Statement (.rec8w1101) := by simp [Statement, encode, longestOperation]
theorem rec8w1110 : Statement (.rec8w1110) := by simp [Statement, encode, longestOperation]
theorem rec8w1111 : Statement (.rec8w1111) := by simp [Statement, encode, longestOperation]

end Sys2Proof.Laws.EncodedLength
end

