-- ==== Sys2Proof/Tests/Slice0.lean ====
section
/-! SUPPORT. The model's own tests: well-formedness, decoding by words written out from R49, R53, R55 and R57 (with the operand
layout of log 6), single steps with expected values from spec/95_test_vectors.md and the tables of the rules, and a witness
for the hypotheses of each obligation. -/

namespace Sys2Proof.Tests

open Sys2Proof Machine

/-! ### Helpers -/

/-- A state at rest with the given width and datapath registers. -/
def regs (n : Nat) (a q pq : Int) : State :=
  { State.reset with n := n, a := BitVec.ofInt 64 a, q := BitVec.ofInt 64 q, pq := BitVec.ofInt 64 pq }

/-- A command with integer operands. -/
def command (r : Radix) (a b : Int) (n : Nat) : Command :=
  { radix := r, width := BitVec.ofNat 8 n, multiplicand := BitVec.ofInt 64 a, multiplier := BitVec.ofInt 64 b }

/-- A multiplication of `a` and `b` under way, with the registers and counters given. -/
def running (r : Radix) (a b : Int) (n i : Nat) (q pq : Int) (adds delay : Nat) : State :=
  { regs n a q pq with
    radix := r, m := r.iterations n, i := i, adds := adds, delay := delay, status := .busy, cmd := command r a b n,
    phase := if i = r.iterations n then .final else .iter }

/-- A view of the next state, if the outcome is one. -/
def seen {α : Type} (f : State → α) : Host.Outcome State Fault Refusal → Option α
  | .next t => some (f t)
  | .fault _ => none
  | .refused _ => none

/-- What was handed back. -/
def returned (o : Host.Outcome State Fault Refusal) : Option (Option Int) := seen State.ret o

/-- STATUS and CAUSE. -/
def statusCause (o : Host.Outcome State Fault Refusal) : Option (Status × Cause) := seen (fun t => (t.status, t.cause)) o

/-- The numbers of the Result. -/
def resultOf (o : Host.Outcome State Fault Refusal) : Option (Option (Int × Nat × Nat × Nat)) :=
  seen (fun t => t.result.map fun x => (x.product, x.iterations, x.additions, x.delay)) o

/-- PQ, Q, ADDS and DELAY, as the trace columns of spec/95_test_vectors.md part 3. -/
def trace (o : Host.Outcome State Fault Refusal) : Option (Int × Int × Nat × Nat) :=
  seen (fun t => (t.pq.toInt, t.q.toInt, t.adds, t.delay)) o

/-! ### Well-formedness refuses an ill-formed term of each check -/

theorem test_wf_natural_operands :
    (Instr.sext 0 256).wellFormed = false ∧ (Instr.qLoad 0 256).wellFormed = false ∧ (Instr.pqSar 256).wellFormed = false ∧
    (Instr.qSar 256).wellFormed = false ∧ (Instr.dlyCpl 256).wellFormed = false ∧ (Instr.dlyMux 256).wellFormed = false ∧
    (Instr.dlyCsel 256).wellFormed = false ∧ (Instr.dlyPre .r4 256).wellFormed = false ∧
    (Instr.dlyIter .r8 256 true).wellFormed = false := by decide

theorem test_wf_word_operand :
    (Instr.pqSetHi (2 ^ 63)).wellFormed = false ∧ (Instr.pqSetHi (-(2 ^ 63) - 1)).wellFormed = false ∧
    (Instr.pqSetHi (-(2 ^ 63))).wellFormed = true := by decide

theorem test_wf_coefficient :
    (Instr.pqAcc 5).wellFormed = false ∧ (Instr.pqAcc (-5)).wellFormed = false ∧ (Instr.pqAcc (-4)).wellFormed = true := by
  decide

theorem test_wf_additions :
    (Instr.dlyTotal .r4 4 [true, false]).wellFormed = false ∧ (Instr.dlyTotal .r8 256 []).wellFormed = false ∧
    (Instr.dlyTotal .r8 4 [true, false]).wellFormed = true := by decide

/-! ### Decoding: for each operation a word written out from its UOP code (R57) -/

theorem test_decode_mul4 :
    decode [0x00, 0x04, 0x0f, 0x00, 0x00, 0x00, 0x00, 0x00, 0x00, 0x00, 0x0e, 0x00, 0x00, 0x00, 0x00, 0x00, 0x00, 0x00] =
      .ok (.mul4 15 14 4, []) := by rfl
theorem test_decode_mul8 :
    decode [0x01, 0x08, 0x64, 0x00, 0x00, 0x00, 0x00, 0x00, 0x00, 0x00, 0xf3, 0xff, 0xff, 0xff, 0xff, 0xff, 0xff, 0xff] =
      .ok (.mul8 0x64 0xfffffffffffffff3 8, []) := by rfl
theorem test_decode_sext :
    decode [0x02, 0xf8, 0x01, 0x00, 0x00, 0x00, 0x00, 0x00, 0x00, 0x04] =
      .ok (.sext 0x1f8 4, []) := by rfl
theorem test_decode_rec4 : decode [0x03, 0b100] = .ok (.rec4 0b100, []) := by rfl
theorem test_decode_rec8 : decode [0x04, 0b1010] = .ok (.rec8 0b1010, []) := by rfl
theorem test_decode_pqClr : decode [0x05] = .ok (.pqClr, []) := by rfl
theorem test_decode_pqHigh : decode [0x06] = .ok (.pqHigh, []) := by rfl
theorem test_decode_pqLow : decode [0x07] = .ok (.pqLow, []) := by rfl
theorem test_decode_pqSetHi :
    decode [0x08, 0xfe, 0xff, 0xff, 0xff, 0xff, 0xff, 0xff, 0xff] =
      .ok (.pqSetHi (-2), []) := by rfl
theorem test_decode_pqAcc : decode [0x09, 0b1100] = .ok (.pqAcc (-4), []) := by rfl
theorem test_decode_pqSar : decode [0x0a, 0x03] = .ok (.pqSar 3, []) := by rfl
theorem test_decode_pqValue : decode [0x0b] = .ok (.pqValue, []) := by rfl
theorem test_decode_qLoad :
    decode [0x0c, 0x00, 0x08, 0x00, 0x00, 0x00, 0x00, 0x00, 0x00, 0x0c] =
      .ok (.qLoad 0x800 12, []) := by rfl
theorem test_decode_qSar : decode [0x0d, 0x02] = .ok (.qSar 2, []) := by rfl
theorem test_decode_dlyCpl : decode [0x0e, 0x08] = .ok (.dlyCpl 8, []) := by rfl
theorem test_decode_dlyMux : decode [0x0f, 0x03] = .ok (.dlyMux 3, []) := by rfl
theorem test_decode_dlyCsel : decode [0x10, 0x06] = .ok (.dlyCsel 6, []) := by rfl
theorem test_decode_dlyLatch : decode [0x11] = .ok (.dlyLatch, []) := by rfl
theorem test_decode_dlyPre : decode [0x12, 0x01, 0x04] = .ok (.dlyPre .r8 4, []) := by rfl
theorem test_decode_dlyIter : decode [0x13, 0x00, 0x0a, 0x01] = .ok (.dlyIter .r4 10 true, []) := by rfl
theorem test_decode_dlyTotal : decode [0x14, 0x01, 0x04, 0x01, 0x00] = .ok (.dlyTotal .r8 4 [true, false], []) := by rfl
theorem test_decode_seqInit4 : decode [0x15] = .ok (.seqInit4, []) := by rfl
theorem test_decode_seqIter4 : decode [0x16] = .ok (.seqIter4, []) := by rfl
theorem test_decode_seqFinal4 : decode [0x17] = .ok (.seqFinal4, []) := by rfl
theorem test_decode_seqInit8 : decode [0x18] = .ok (.seqInit8, []) := by rfl
theorem test_decode_seqIter8 : decode [0x19] = .ok (.seqIter8, []) := by rfl
theorem test_decode_seqFinal8 : decode [0x1a] = .ok (.seqFinal8, []) := by rfl
theorem test_decode_rec4w000 : decodeTableWord 3 0b000 = some .rec4w000 := by rfl
theorem test_decode_rec4w001 : decodeTableWord 3 0b001 = some .rec4w001 := by rfl
theorem test_decode_rec4w010 : decodeTableWord 3 0b010 = some .rec4w010 := by rfl
theorem test_decode_rec4w011 : decodeTableWord 3 0b011 = some .rec4w011 := by rfl
theorem test_decode_rec4w100 : decodeTableWord 3 0b100 = some .rec4w100 := by rfl
theorem test_decode_rec4w101 : decodeTableWord 3 0b101 = some .rec4w101 := by rfl
theorem test_decode_rec4w110 : decodeTableWord 3 0b110 = some .rec4w110 := by rfl
theorem test_decode_rec4w111 : decodeTableWord 3 0b111 = some .rec4w111 := by rfl
theorem test_decode_rec8w0000 : decodeTableWord 4 0b0000 = some .rec8w0000 := by rfl
theorem test_decode_rec8w0001 : decodeTableWord 4 0b0001 = some .rec8w0001 := by rfl
theorem test_decode_rec8w0010 : decodeTableWord 4 0b0010 = some .rec8w0010 := by rfl
theorem test_decode_rec8w0011 : decodeTableWord 4 0b0011 = some .rec8w0011 := by rfl
theorem test_decode_rec8w0100 : decodeTableWord 4 0b0100 = some .rec8w0100 := by rfl
theorem test_decode_rec8w0101 : decodeTableWord 4 0b0101 = some .rec8w0101 := by rfl
theorem test_decode_rec8w0110 : decodeTableWord 4 0b0110 = some .rec8w0110 := by rfl
theorem test_decode_rec8w0111 : decodeTableWord 4 0b0111 = some .rec8w0111 := by rfl
theorem test_decode_rec8w1000 : decodeTableWord 4 0b1000 = some .rec8w1000 := by rfl
theorem test_decode_rec8w1001 : decodeTableWord 4 0b1001 = some .rec8w1001 := by rfl
theorem test_decode_rec8w1010 : decodeTableWord 4 0b1010 = some .rec8w1010 := by rfl
theorem test_decode_rec8w1011 : decodeTableWord 4 0b1011 = some .rec8w1011 := by rfl
theorem test_decode_rec8w1100 : decodeTableWord 4 0b1100 = some .rec8w1100 := by rfl
theorem test_decode_rec8w1101 : decodeTableWord 4 0b1101 = some .rec8w1101 := by rfl
theorem test_decode_rec8w1110 : decodeTableWord 4 0b1110 = some .rec8w1110 := by rfl
theorem test_decode_rec8w1111 : decodeTableWord 4 0b1111 = some .rec8w1111 := by rfl

/-- Rejections by name: unassigned codes (R59), a pattern no recoder produces (R53), a window bit too many, a byte of no
format, a truncated operation. -/
theorem test_decode_rejections :
    decode [0x1b] = .error (.unassignedCode 0x1b) ∧ decode [0x1f] = .error (.unassignedCode 0x1f) ∧
    decode [0x09, 0b0101] = .error (.notACoefficient 0b0101) ∧ decode [0x03, 0b1000] = .error (.reservedBits 0b1000) ∧
    decode [0x28] = .error (.noFormat 0x28) ∧ decode [0x12, 0x02, 0x04] = .error (.notARadix 2) ∧
    decode [0x0a] = .error .truncated ∧ decode [] = .error .truncated := by
  refine ⟨?_, ?_, ?_, ?_, ?_, ?_, ?_, ?_⟩ <;> rfl

/-! ### Single steps, expected values from spec/95_test_vectors.md -/

/-- Section 2.5, row 1 (the source's vector S1) and the extreme row of `n` = 12. -/
theorem test_mul4 :
    resultOf (exec (.mul4 15 14 4) State.reset) = some (some (2, 3, 1, 28)) ∧
    resultOf (exec (.mul4 0x800 0x800 12) State.reset) = some (some (4194304, 7, 1, 70)) := by decide

/-- Section 2.8: the width wins over the operand; an operand out of range. -/
theorem test_mul4_faults :
    statusCause (exec (.mul4 16 1 5) State.reset) = some (.fault, .unsupportedWidth) ∧
    statusCause (exec (.mul4 16 1 4) State.reset) = some (.fault, .operandRange) := by decide

/-- Section 2.6: the row 100 * -77 (final shift 2), and program P6's second command after a fault. -/
theorem test_mul8 :
    resultOf (exec (.mul8 100 0xb3 8) State.reset) = some (some (-7700, 3, 3, 68)) ∧
    resultOf (exec (.mul8 3 5 4) (raise .unsupportedWidth (.width 5) State.reset)) = some (some (15, 2, 2, 35)) := by decide

/-- Section 2.8. -/
theorem test_mul8_faults :
    statusCause (exec (.mul8 0 0 14) State.reset) = some (.fault, .unsupportedWidth) ∧
    statusCause (exec (.mul8 1 4096 12) State.reset) = some (.fault, .operandRange) := by decide

/-- Section 2.1. -/
theorem test_sext :
    returned (exec (.sext 0x1f8 4) State.reset) = some (some (-8)) ∧ returned (exec (.sext 1 1) State.reset) = some (some (-1)) ∧
    returned (exec (.sext 0x7ff 12) State.reset) = some (some 2047) := by decide

theorem test_sext_faults :
    statusCause (exec (.sext 7 0) State.reset) = some (.fault, .sextWidth) ∧
    statusCause (exec (.sext 7 65) State.reset) = some (.fault, .sextWidth) ∧
    returned (exec (.sext 7 65) State.reset) = some none := by decide

/-- The table of R66 and section 2.2. -/
theorem test_rec4 :
    (List.range 8).map (fun n => returned (exec (.rec4 (BitVec.ofNat 3 n)) State.reset)) =
      [0, 1, 1, 2, -2, -1, -1, 0].map fun c => some (some c) := by decide

/-- The table of R67 and section 2.3. -/
theorem test_rec8 :
    (List.range 16).map (fun n => returned (exec (.rec8 (BitVec.ofNat 4 n)) State.reset)) =
      [0, 1, 1, 2, 2, 3, 3, 4, -4, -3, -3, -2, -2, -1, -1, 0].map fun c => some (some c) := by decide

/-- The entries of R66, one operation each. -/
theorem test_rec4_entries :
    rec4EntryReads.map (fun i => returned (exec i State.reset)) = [0, 1, 1, 2, -2, -1, -1, 0].map fun c => some (some c) := by
  decide

/-- The entries of R67, one operation each. -/
theorem test_rec8_entries :
    rec8EntryReads.map (fun i => returned (exec i State.reset)) =
      [0, 1, 1, 2, 2, 3, 3, 4, -4, -3, -3, -2, -2, -1, -1, 0].map fun c => some (some c) := by decide

/-- Section 2.4. -/
theorem test_pqClr : seen (fun t => t.pq) (exec .pqClr (regs 4 0 0 (-18))) = some 0 := by decide

theorem test_pqHigh :
    returned (exec .pqHigh (regs 4 0 0 (-18))) = some (some (-2)) ∧ returned (exec .pqHigh (regs 4 0 0 127)) = some (some 7) := by
  decide

theorem test_pqLow :
    returned (exec .pqLow (regs 4 0 0 (-18))) = some (some 14) ∧ returned (exec .pqLow (regs 4 0 0 (-1))) = some (some 15) := by
  decide

theorem test_pqSetHi :
    seen (fun t => t.pq.toInt) (exec (.pqSetHi 1) (regs 4 0 0 (-18))) = some 30 ∧
    seen (fun t => t.pq.toInt) (exec (.pqSetHi (-1)) (regs 4 0 0 127)) = some (-1) := by decide

theorem test_pqAcc :
    seen (fun t => t.pq.toInt) (exec (.pqAcc (-4)) (regs 6 (-32) 0 0)) = some 8192 ∧
    seen (fun t => t.pq.toInt) (exec (.pqAcc 1) (regs 4 3 0 (-18))) = some 30 := by decide

theorem test_pqSar :
    seen (fun t => t.pq.toInt) (exec (.pqSar 3) (regs 4 0 0 (-144))) = some (-18) ∧
    seen (fun t => t.pq.toInt) (exec (.pqSar 1) (regs 4 0 0 (-5))) = some (-3) := by decide

theorem test_pqValue : returned (exec .pqValue (regs 4 0 0 (-18))) = some (some (-18)) := by decide

theorem test_qLoad :
    seen (fun t => t.q.toInt) (exec (.qLoad 0b1110 4) State.reset) = some (-4) ∧
    seen (fun t => t.q.toInt) (exec (.qLoad 0x800 12) State.reset) = some (-4096) := by decide

theorem test_qSar :
    seen (fun t => t.q.toInt) (exec (.qSar 3) (regs 8 0 (-154) 0)) = some (-20) ∧
    seen (fun t => t.q.toInt) (exec (.qSar 3) (regs 8 0 (-1) 0)) = some (-1) := by decide

/-- Section 2.7. -/
theorem test_dlyCpl : returned (exec (.dlyCpl 12) State.reset) = some (some 12) := by decide

theorem test_dlyMux : returned (exec (.dlyMux 3) State.reset) = some (some 4) := by decide

theorem test_dlyCsel :
    [4, 6, 8, 10, 12].map (fun n => returned (exec (.dlyCsel n) State.reset)) = [8, 10, 12, 12, 14].map (fun d => some (some d)) ∧
    [0, 2, 5, 14, 16].map (fun n => statusCause (exec (.dlyCsel n) State.reset)) =
      List.replicate 5 (some (.fault, .unsupportedWidth)) := by decide

theorem test_dlyLatch : returned (exec .dlyLatch State.reset) = some (some 3) := by decide

theorem test_dlyPre :
    [4, 6, 8, 10, 12].map (fun n => returned (exec (.dlyPre .r8 n) State.reset)) =
      [12, 16, 20, 22, 26].map (fun d => some (some d)) ∧
    returned (exec (.dlyPre .r4 12) State.reset) = some (some 12) := by decide

theorem test_dlyIter :
    [4, 6, 8, 10, 12].map (fun n => returned (exec (.dlyIter .r4 n true) State.reset)) =
      [10, 12, 14, 14, 16].map (fun d => some (some d)) ∧
    returned (exec (.dlyIter .r8 12 false) State.reset) = some (some 5) := by decide

/-- Section 2.7, "Worked". -/
theorem test_dlyTotal :
    returned (exec (.dlyTotal .r4 4 [true, false, false]) State.reset) = some (some 28) ∧
    returned (exec (.dlyTotal .r8 12 [false, false, false, false, false]) State.reset) = some (some 63) := by decide

theorem test_dlyTotal_length : exec (.dlyTotal .r4 4 [true]) State.reset = .refused .additionsLength := by rfl

/-- The INIT rows of programs P1 and P2, and P6's fault entry. -/
theorem test_seqInit4 :
    trace (exec .seqInit4 { State.reset with cmd := command .r4 15 14 4, phase := .init }) = some (0, -4, 0, 4) := by decide

theorem test_seqInit8 :
    trace (exec .seqInit8 { State.reset with cmd := command .r8 3 5 4, phase := .init }) = some (0, 10, 0, 12) := by decide

theorem test_seqInit8_fault :
    seen (fun t => (t.status, t.cause, t.phase)) (exec .seqInit8 { State.reset with cmd := command .r8 3 5 5, phase := .init }) =
      some (.fault, .unsupportedWidth, .fault) := by decide

/-- Program P1, iterations 0 and 2 (the last, without a latch delay). -/
theorem test_seqIter4 :
    trace (exec .seqIter4 (running .r4 (-1) (-2) 4 0 (-4) 0 0 4)) = some (32, -1, 1, 17) ∧
    trace (exec .seqIter4 (running .r4 (-1) (-2) 4 2 (-1) 8 1 24)) = some (2, -1, 1, 28) := by decide

/-- Program P2, iterations 0 and 1. -/
theorem test_seqIter8 :
    trace (exec .seqIter8 (running .r8 3 5 4 0 10 0 0 12)) = some (-144, 1, 1, 25) ∧
    trace (exec .seqIter8 (running .r8 3 5 4 1 1 (-144) 1 25)) = some (30, 0, 2, 35) := by decide

theorem test_seqFinal4 : resultOf (exec .seqFinal4 (running .r4 (-1) (-2) 4 3 (-1) 2 1 28)) = some (some (2, 3, 1, 28)) := by
  decide

theorem test_seqFinal8 : resultOf (exec .seqFinal8 (running .r8 3 5 4 2 0 30 2 35)) = some (some (15, 2, 2, 35)) := by decide

/-- R28: the Result stays 15 (program P2) when the host clears PQ after DONE, and PQ is 0 (section 2.4). -/
theorem test_result_is_immutable :
    seen (fun t => (t.result.map Result.product, t.pq)) (exec .pqClr (finalStep .r8 (running .r8 3 5 4 2 0 30 2 35))) =
      some (some 15, 0) := by decide

/-- START: one step accepts the command and runs INIT (P2's first row). -/
theorem test_start :
    trace (step { State.reset with cmd := command .r8 3 5 4, start := true }) = some (0, 10, 0, 12) ∧
    step { running .r8 3 5 4 0 10 0 0 12 with start := true } = .fault .startWhileBusy := ⟨by decide, by rfl⟩

/-- An operation lined up by the host is run and taken from the front; a row of the table placed by `withFetchWord` is run. -/
theorem test_step_runs_operation :
    seen (fun t => (t.ret, t.ops)) (step { State.reset with ops := [0x04, 0b1010, 0x05] }) = some (some (-3), [0x05]) ∧
    returned (step (State.reset.withFetchWord 4 0b1010)) = some (some (-3)) := by decide

theorem test_step_refuses_unassigned :
    step { State.reset with ops := [0x1b] } = .refused (.undecodable (.unassignedCode 0x1b)) := by rfl

/-! ### Witnesses: states and operands that meet the hypotheses of the obligations -/

/-- Program P2 after iteration 0, and before FINAL. -/
def midway : State := running .r8 3 5 4 1 1 (-144) 1 25
def beforeFinal : State := running .r8 3 5 4 2 0 30 2 35

/-- Program P4 after iteration 1, where PQ is at the bound of R95. -/
def extreme : State := running .r8 (-32) (-32) 6 2 (-1) 8192 1 39

/-- A command on the ports with START. -/
def started (r : Radix) (a b : Int) (n : Nat) : State := { State.reset with cmd := command r a b n, start := true }

theorem witness_decodeInvertsEncode :
    (Instr.dlyTotal .r8 4 [true, false]).wellFormed = true ∧ (Instr.sext 1 255).wellFormed = true ∧ (Instr.pqAcc (-4)).wellFormed = true ∧
    (Instr.pqSetHi (-(2 ^ 63))).wellFormed = true := by decide

theorem witness_encodeInvertsDecode : decode [0x13, 0x00, 0xff, 0x01, 0x05] = .ok (.dlyIter .r4 255 true, [0x05]) := by rfl

theorem witness_unassignedCodesRefused :
    (0x1b ≤ (0x1b : Byte).toNat ∧ (0x1f : Byte).toNat ≤ 0x1f) ∧
    ∃ s : State, s.start = false ∧ (s.phase = .idle ∨ s.phase = .done ∨ s.phase = .fault) ∧ s.ops = 0x1b :: [] :=
  ⟨by decide, { State.reset with ops := [0x1b] }, rfl, .inl rfl, rfl⟩

theorem witness_outputsAreTheCodes : (finalStep .r8 beforeFinal).status = .done ∧ State.reset.status ≠ .done := by decide

theorem witness_stepRunsLinedUpOperation :
    ∃ s : State, s.start = false ∧ (s.phase = .idle ∨ s.phase = .done ∨ s.phase = .fault) ∧
      decode s.ops = .ok (.pqClr, [0x06]) :=
  ⟨{ State.reset with ops := [0x05, 0x06] }, rfl, .inl rfl, rfl⟩

theorem witness_restWithNothing : State.reset.start = false ∧ State.reset.phase = .idle ∧ State.reset.ops = [] := by decide

theorem witness_stepRunsSequencer (r : Radix) :
    ∃ a b c : State, a.start = false ∧ a.phase = .init ∧ a.cmd.radix = r ∧ b.start = false ∧ b.phase = .iter ∧ b.radix = r ∧
      c.start = false ∧ c.phase = .final ∧ c.radix = r :=
  ⟨{ State.reset with cmd := command r 1 1 4, phase := .init }, { State.reset with radix := r, phase := .iter },
    { State.reset with radix := r, phase := .final }, rfl, rfl, rfl, rfl, rfl, rfl, rfl, rfl, rfl⟩

theorem witness_startIsAcceptedAtRest (r : Radix) :
    (started r 3 5 4).start = true ∧ (started r 3 5 4).status ≠ .busy ∧ (started r 3 5 4).cmd.radix = r :=
  ⟨rfl, nofun, rfl⟩

theorem witness_startWhileBusyIsStuck : { midway with start := true }.status = .busy ∧ { midway with start := true }.start = true :=
  ⟨rfl, rfl⟩

theorem witness_coherent : midway.Coherent ∧ beforeFinal.Coherent ∧ extreme.Coherent ∧ (raise .sextWidth (.width 0) State.reset).Coherent :=
  ⟨by decide, by decide, by decide, by decide⟩

theorem witness_done_coherent : (finalStep .r8 beforeFinal).Coherent := by decide

theorem witness_midway_loop : midway.LoopInvariant :=
  fun _ => ⟨by decide, by decide, by decide, by decide, by decide, by decide, by decide⟩

theorem witness_beforeFinal_loop : beforeFinal.LoopInvariant :=
  fun _ => ⟨by decide, by decide, by decide, by decide, by decide, by decide, by decide⟩

theorem witness_extreme_loop : extreme.LoopInvariant :=
  fun _ => ⟨by decide, by decide, by decide, by decide, by decide, by decide, by decide⟩

theorem witness_stepKeepsInvariants : ∃ t, midway.Coherent ∧ midway.LoopInvariant ∧ step midway = .next t :=
  ⟨_, witness_coherent.1, witness_midway_loop, rfl⟩

theorem witness_finalDeliversProduct :
    beforeFinal.Coherent ∧ beforeFinal.LoopInvariant ∧ beforeFinal.start = false ∧ beforeFinal.phase = .final :=
  ⟨witness_coherent.2.1, witness_beforeFinal_loop, rfl, rfl⟩

theorem witness_iteratingNeverFaults :
    (midway.Coherent ∧ midway.start = false ∧ midway.phase = .iter) ∧
    (beforeFinal.Coherent ∧ beforeFinal.start = false ∧ beforeFinal.phase = .final) :=
  ⟨⟨by decide, rfl, rfl⟩, by decide, rfl, rfl⟩

theorem witness_doubleRegisterStaysBounded :
    extreme.Coherent ∧ extreme.LoopInvariant ∧ extreme.phase = .iter ∧
    extreme.pq.toInt = 2 ^ (2 * extreme.n + extreme.radix.k - 2) :=
  ⟨witness_coherent.2.2.1, witness_extreme_loop, rfl, by decide⟩

theorem witness_shiftsLoseNothing :
    (extreme.Coherent ∧ extreme.LoopInvariant ∧ extreme.phase = .iter) ∧
    (beforeFinal.Coherent ∧ beforeFinal.LoopInvariant ∧ beforeFinal.phase = .final) :=
  ⟨⟨witness_coherent.2.2.1, witness_extreme_loop, rfl⟩, witness_coherent.2.1, witness_beforeFinal_loop, rfl⟩

theorem witness_startedCommandRunsToDone :
    (started .r8 (-2048) 2047 12).start = true ∧ (started .r8 (-2048) 2047 12).status ≠ .busy ∧
    (started .r8 (-2048) 2047 12).cmd.acceptable ∧ (started .r4 15 14 4).cmd.acceptable := by decide

theorem witness_startedCommandFaultsInOneStep :
    (started .r4 1 1 5).start = true ∧ (started .r4 1 1 5).status ≠ .busy ∧ ¬ (started .r4 1 1 5).cmd.acceptable ∧
    ¬ (started .r4 16 1 4).cmd.acceptable := by decide

/-- The operands at the ends of the accepted ranges, at the narrowest and the widest supported width (Mul4IsExact,
Mul8IsExact, RadicesAgreeOnProduct, ProductFitsTwiceTheWidth, CostIgnoresMultiplicand, CountersStayInRange). -/
theorem witness_acceptable :
    State.reset.status ≠ .busy ∧ Acceptable (4#8).toNat (0xf#64) (0xfffffffffffffff8#64) ∧
    Acceptable (12#8).toNat (0x800#64) (0x7ff#64) ∧ Acceptable (6#8).toNat (0x15#64) (2#64) ∧
    Acceptable (12#8).toNat (0#64) (0x7ff#64) := by decide

theorem witness_unsupportedWidthFaultsCommands :
    State.reset.status ≠ .busy ∧ (0#8).toNat ∉ supportedWidths ∧ (5#8).toNat ∉ supportedWidths ∧
    (255#8).toNat ∉ supportedWidths := by decide

theorem witness_operandRangeFaultsCommands :
    State.reset.status ≠ .busy ∧ (4#8).toNat ∈ supportedWidths ∧
    ¬ (operandFits (4#8).toNat (16#64) = true ∧ operandFits (4#8).toNat (1#64) = true) ∧
    ¬ (operandFits (4#8).toNat (1#64) = true ∧ operandFits (4#8).toNat (BitVec.ofInt 64 (-9)) = true) := by decide

/-- Both ends of the range of `n`, and operands at the ends of both ranges of values (OperandFitsMeansRange). -/
theorem witness_operandFitsMeansRange :
    (1 ≤ 1 ∧ 1 ≤ 64) ∧ (1 ≤ 64 ∧ 64 ≤ 64) ∧ operandFits 4 (15#64) = true ∧ operandFits 4 (16#64) = false ∧
    operandFits 4 (BitVec.ofInt 64 (-8)) = true ∧ operandFits 4 (BitVec.ofInt 64 (-9)) = false := by decide

theorem witness_commandsForgetEarlierState : State.reset.status ≠ .busy ∧ (finalStep .r8 beforeFinal).status ≠ .busy := by decide

theorem witness_productExactAtEveryRegisterWidth :
    27 ≤ 27 ∧ Acceptable 12 (BitVec.ofInt 27 (-2048)) (BitVec.ofInt 27 (-2048)) ∧
    (carrySelectDelay delayConfig 12).isSome = true := by decide

/-- The extremes at which a register one bit narrower goes wrong, at the two ends of the supported widths. -/
theorem witness_narrowerRegisterFails :
    4 ∈ supportedWidths ∧ 12 ∈ supportedWidths ∧
    Acceptable 4 (BitVec.ofInt (2 * 4 + Radix.r4.k - 1) (-8)) (2 : BitVec (2 * 4 + Radix.r4.k - 1)) ∧
    Acceptable 12 (BitVec.ofInt (2 * 12 + Radix.r8.k - 1) (-2048)) (4 : BitVec (2 * 12 + Radix.r8.k - 1)) := by decide

theorem witness_initLoadsEverything (r : Radix) :
    ∃ s : State, s.phase = .init ∧ s.cmd.acceptable ∧ s.cmd.radix = r :=
  ⟨(started r 15 14 4).accept, rfl, by cases r <;> decide, rfl⟩

theorem witness_iterationFollowsSubsteps :
    midway.phase = .iter ∧ midway.i < midway.m ∧ midway.n ∈ supportedWidths ∧ recode midway.radix midway.q = 1 ∧
    recode extreme.radix extreme.q = 0 := by decide

theorem witness_finalShiftsAndCompletes : beforeFinal.phase = .final := by decide

/-- Each clause of SequencerStepsOutsidePhaseAreStuck: a wrong PHASE, INIT with the other radix, ITER with `I = M`. -/
theorem witness_sequencerStepsOutsidePhase :
    (State.reset.phase ≠ .init ∧ State.reset.phase ≠ .iter ∧ State.reset.phase ≠ .final) ∧
    ((started .r8 3 5 4).accept.phase = .init ∧ (started .r8 3 5 4).accept.cmd.radix = .r8) ∧
    ((started .r4 3 5 4).accept.phase = .init ∧ (started .r4 3 5 4).accept.cmd.radix = .r4) ∧
    ({ midway with i := 2 }.phase = .iter ∧ { midway with i := 2 }.m ≤ { midway with i := 2 }.i) :=
  ⟨by decide, ⟨rfl, rfl⟩, ⟨rfl, rfl⟩, rfl, Nat.le_refl 2⟩

/-- The ends of the range of widths (SextReplicatesSignBit, SextValueAndIdempotence, LoadInsertsImplicitZero), and beyond them
(SextOutsideContractFaults). -/
theorem witness_sext_widths :
    (1 ≤ 1 ∧ 1 ≤ 64) ∧ (1 ≤ 64 ∧ 64 ≤ 64) ∧ (0 = 0 ∨ 64 < 0) ∧ (65 = 0 ∨ 64 < 65) := by decide

theorem witness_sext_values :
    (sext 1 (1#64)).toInt = -1 ∧ (sext 64 (0x8000000000000000#64)).toInt = -(2 ^ 63) ∧ (1#64).getLsbD (1 - 1) = true ∧
    (0#64).getLsbD (1 - 1) = false := by decide

theorem witness_recodingIdentity :
    1 ≤ 4 ∧ -(2 ^ (4 - 1)) ≤ (-8 : Int) ∧ (7 : Int) < 2 ^ (4 - 1) ∧ 4 ≤ Radix.r4.k * (1 + 1) ∧ 4 ≤ Radix.r8.k * (1 + 1) := by
  decide

theorem witness_halves : (regs 64 0 0 (-18)).n ≤ 64 ∧ (regs 0 0 0 (-18)).n ≤ 64 := by decide

theorem witness_delayTable :
    (4, 8) ∈ [(4, 8), (6, 10), (8, 12), (10, 12), (12, 14)] ∧ (12, 14) ∈ [(4, 8), (6, 10), (8, 12), (10, 12), (12, 14)] := by
  decide

theorem witness_unsupportedWidthFaultsDelays :
    5 ∉ supportedWidths ∧ 0 ∉ supportedWidths ∧ [true, false, true].length = Radix.r4.iterations 5 ∧
    [true].length = Radix.r8.iterations 0 := by decide

theorem witness_totalDelay :
    (4, 8) ∈ [(4, 8), (6, 10), (8, 12), (10, 12), (12, 14)] ∧ [true, false, false].length = Radix.r4.iterations 4 ∧
    [true, true, false].length = Radix.r4.iterations 4 ∧ [true, false, false].count true ≤ [true, true, false].count true := by
  decide

theorem witness_frameOfValueOperations :
    ∃ t u, (Instr.pqHigh.footprint = .value ∧ exec .pqHigh midway = .next t) ∧
      (Instr.footprint (.sext 7 0)) = .value ∧ exec (.sext 7 0) State.reset = .next u :=
  ⟨_, _, ⟨rfl, rfl⟩, rfl, rfl⟩

/-- Each clause of FrameOfRegisterWrites, Q.LOAD at both ends of the widths it loads and just beyond them. -/
theorem witness_frameOfRegisterWrites :
    (∃ t, exec (.pqAcc 2) midway = .next t ∧ (Instr.pqAcc 2).footprint = .writesPq) ∧
    (∃ t, exec (.qSar 3) midway = .next t) ∧
    (∃ t u, exec (.qLoad 1 1) State.reset = .next t ∧ exec (.qLoad 1 64) State.reset = .next u ∧ 1 ≤ 1 ∧ 64 ≤ 64) ∧
    (∃ t u, exec (.qLoad 1 0) State.reset = .next t ∧ exec (.qLoad 1 65) State.reset = .next u ∧ 64 < 65) :=
  ⟨⟨_, rfl, rfl⟩, ⟨_, rfl⟩, ⟨_, _, rfl, rfl, by decide, by decide⟩, ⟨_, _, rfl, rfl, by decide⟩⟩

theorem witness_onlySequencerWritesControl :
    ∃ t, exec .seqFinal8 beforeFinal = .next t ∧ Instr.seqFinal8.footprint ≠ .command ∧ Instr.seqFinal8.footprint ≠ .init ∧
      Instr.seqFinal8.footprint ≠ .iter :=
  ⟨_, rfl, by decide, by decide, by decide⟩

theorem witness_faultsWriteNoDatapathRegister :
    ∃ t, exec (.mul4 1 1 5) State.reset = .next t ∧ t.status = .fault ∧ State.reset.status ≠ .fault :=
  ⟨_, rfl, by decide, by decide⟩

/-- A PQ operation, and an operation that faults, after DONE. -/
theorem witness_onlyFinalMakesDone :
    (∃ t, exec .pqClr (finalStep .r8 beforeFinal) = .next t ∧ Instr.pqClr.footprint ≠ .final ∧
      Instr.pqClr.footprint ≠ .command ∧ t.status = .done) ∧
    (∃ t, exec (.sext 7 0) (finalStep .r8 beforeFinal) = .next t ∧ t.status = .fault) :=
  ⟨⟨_, rfl, by decide, by decide, by decide⟩, _, rfl, by decide⟩

end Sys2Proof.Tests
end

section
/-! SUPPORT. Booth's recoding as integer arithmetic (R68, R72, R92, R95, R103): the signed value of the low bits grows by one
digit per group, and the partial products of R92 shift exactly, stay bounded and end in the product. -/

namespace Sys2Proof

open Machine

/-! ### The signed value of the low bits -/

/-- What lies above the low bits is `b / 2^bits` rounded to the nearest integer: `Q` after the shifts, rounded (R92). -/
theorem signedLow_eq (bits : Nat) (b : Int) :
    signedLow bits b = b - 2 ^ bits * ((2 * b / 2 ^ bits + 1) / 2) := by
  cases bits with
  | zero => simp [signedLow]; omega
  | succ m =>
    have half : 2 * b / 2 ^ (m + 1) = b / 2 ^ m := by
      rw [pow_succ', Int.mul_ediv_mul_of_pos _ _ two_pos]
    have parts : 2 ^ m * (b / 2 ^ m) + b % 2 ^ m = b := Int.mul_ediv_add_emod b (2 ^ m)
    have low : 0 ≤ b % 2 ^ m := Int.emod_nonneg _ (by positivity)
    have high : b % 2 ^ m < 2 ^ m := Int.emod_lt_of_pos _ (by positivity)
    rw [half, signedLow, ← Int.sub_mul_bmod_self_left b _ ((b / 2 ^ m + 1) / 2), Nat.cast_pow, Nat.cast_ofNat]
    generalize hR : (b / 2 ^ m + 1) / 2 = R
    obtain e | e : b / 2 ^ m = 2 * R ∨ b / 2 ^ m = 2 * R - 1 := by omega
    all_goals
      rw [e] at parts
      apply Int.bmod_eq_of_le_mul_two <;> push_cast <;> rw [pow_succ] <;> linarith

@[simp] theorem signedLow_zero (b : Int) : signedLow 0 b = 0 := by simp [signedLow]

/-- One more group adds its coefficient at the group's weight (R72). -/
theorem signedLow_succ_group (r : Radix) (b : Int) (t : Nat) :
    signedLow (r.k * (t + 1)) b = signedLow (r.k * t) b + boothDigit r b t * 2 ^ (r.k * t) := by
  have shift : 2 * b / 2 ^ (r.k * t) / 2 ^ r.k = 2 * b / 2 ^ (r.k * (t + 1)) := by
    rw [mul_add_one, pow_add, Int.ediv_ediv_of_nonneg (by positivity)]
  rw [signedLow_eq, signedLow_eq, boothDigit, recode_ofInt, Int.shiftRight_eq_div_pow]
  push_cast
  rw [shift, mul_add_one, pow_add]
  ring

theorem abs_signedLow_le {bits : Nat} (h : 1 ≤ bits) (b : Int) : |signedLow bits b| ≤ 2 ^ (bits - 1) := by
  obtain ⟨m, rfl⟩ : ∃ m, bits = m + 1 := ⟨bits - 1, by omega⟩
  have lower := Int.le_bmod (x := b) (m := 2 ^ (m + 1)) (by positivity)
  have upper := Int.bmod_lt (x := b) (m := 2 ^ (m + 1)) (by positivity)
  rw [signedLow, abs_le, Nat.add_sub_cancel]
  push_cast [pow_succ] at lower upper ⊢
  omega

/-- An `n`-bit value is the signed value of its low `n` or more bits (R72). -/
theorem signedLow_of_range {n bits : Nat} {b : Int} (hn : 1 ≤ n) (hbits : n ≤ bits) (low : -(2 ^ (n - 1)) ≤ b)
    (high : b < 2 ^ (n - 1)) : signedLow bits b = b := by
  obtain ⟨m, rfl⟩ : ∃ m, n = m + 1 := ⟨n - 1, by omega⟩
  have wider : (2 : Int) ^ (m + 1) ≤ 2 ^ bits := pow_le_pow_right₀ (by norm_num) hbits
  rw [Nat.add_sub_cancel] at low high
  rw [pow_succ] at wider
  apply Int.bmod_eq_of_le_mul_two <;> push_cast <;> linarith

/-! ### Booth digits and iteration counts -/

theorem Radix.one_le_k (r : Radix) : 1 ≤ r.k := by cases r <;> decide

theorem Radix.k_le_three (r : Radix) : r.k ≤ 3 := by cases r <;> decide

theorem Radix.iterations_eq (r : Radix) (n : Nat) : r.iterations n = n / r.k + 1 := by
  have hk := r.one_le_k
  rw [Radix.iterations, show n + 1 + (r.k - 1) = n + r.k by omega, Nat.add_div_right _ hk]

/-- Every iteration starts inside the operand (R61). -/
theorem Radix.k_mul_le_of_lt_iterations {r : Radix} {n i : Nat} (h : i < r.iterations n) : r.k * i ≤ n := by
  rw [r.iterations_eq] at h
  calc r.k * i ≤ r.k * (n / r.k) := Nat.mul_le_mul_left _ (by omega)
    _ ≤ n := Nat.mul_div_le n r.k

theorem boothAdditions_succ (r : Radix) (b : Int) (i : Nat) :
    boothAdditions r b (i + 1) = boothAdditions r b i + (addsMultiple (boothDigit r b i)).toNat := by
  simp only [boothAdditions, boothAdds, List.range_succ, List.map_append, List.count_append, List.map_cons, List.map_nil]
  cases addsMultiple (boothDigit r b i) <;> rfl

/-! ### Partial products -/

/-- The bits an iteration's shift drops from the partial product are 0 (R84). -/
theorem partialProduct_eq_mul_pow {r : Radix} {n i : Nat} (a b : Int) (h : r.k * i ≤ n) :
    partialProduct r n a b i = a * signedLow (r.k * i) b * 2 ^ (n - r.k * i) * 2 ^ r.k := by
  cases i with
  | zero => simp [partialProduct]
  | succ j =>
    have e : n - r.k * j = n - r.k * (j + 1) + r.k := by rw [mul_add_one] at h ⊢; omega
    rw [partialProduct, e, pow_add, mul_assoc _ (2 ^ _) (2 ^ _)]

/-- One iteration on the partial product: the exact shift, then the multiple at weight `2^n` (R92, R103). -/
theorem partialProduct_succ {r : Radix} {n i : Nat} (a b : Int) (h : r.k * i ≤ n) :
    partialProduct r n a b (i + 1) = partialProduct r n a b i / 2 ^ r.k + boothDigit r b i * a * 2 ^ n := by
  have weight : (2 : Int) ^ n = 2 ^ (r.k * i) * 2 ^ (n - r.k * i) := by rw [← pow_add]; congr 1; omega
  rw [partialProduct_eq_mul_pow a b h, Int.mul_ediv_cancel _ (by positivity), partialProduct, signedLow_succ_group, weight]
  ring

/-- The bound of R95. -/
theorem abs_partialProduct_le {r : Radix} {n i : Nat} {a : Int} (b : Int) (hn : 1 ≤ n) (h : r.k * (i - 1) ≤ n)
    (ha : |a| ≤ 2 ^ (n - 1)) : |partialProduct r n a b i| ≤ 2 ^ (2 * n + r.k - 2) := by
  have hk := r.one_le_k
  cases i with
  | zero => simp [partialProduct]
  | succ j =>
    rw [Nat.add_sub_cancel] at h
    have bits : 1 ≤ r.k * (j + 1) := Nat.mul_pos hk j.succ_pos
    calc |partialProduct r n a b (j + 1)|
        = |a| * |signedLow (r.k * (j + 1)) b| * 2 ^ (n - r.k * j) := by
          rw [partialProduct, abs_mul, abs_mul, abs_of_pos (a := (2 : Int) ^ _) (by positivity)]
      _ ≤ 2 ^ (n - 1) * 2 ^ (r.k * (j + 1) - 1) * 2 ^ (n - r.k * j) := by
          gcongr; exact abs_signedLow_le bits b
      _ = 2 ^ (2 * n + r.k - 2) := by
          rw [← pow_add, ← pow_add, mul_add_one]; congr 1; omega

/-- After all iterations only the alignment shift by `n mod r` is left (R92, R103). -/
theorem partialProduct_iterations {n : Nat} (r : Radix) (a : Int) {b : Int} (hn : 1 ≤ n) (low : -(2 ^ (n - 1)) ≤ b)
    (high : b < 2 ^ (n - 1)) : partialProduct r n a b (r.iterations n) = a * b * 2 ^ r.finalShift n := by
  have covered : n ≤ r.k * (n / r.k + 1) := (Nat.lt_mul_div_succ n r.one_le_k).le
  have rest : n - r.k * (n / r.k) = r.finalShift n := by
    have := Nat.mod_add_div n r.k
    rw [Radix.finalShift]; omega
  rw [r.iterations_eq, partialProduct, signedLow_of_range hn covered low high, rest]

end Sys2Proof
end

section
/-! SUPPORT. The loop invariant of R92 and R103 on the datapath at any register width (R8), for any record of delay literals:
INIT's load begins it, an iteration keeps it where the register has the `2n + r` bits of R95, and from it FINAL's shift gives
the product. -/

namespace Sys2Proof

open Machine

variable {w : Nat}

/-! ### Exact register arithmetic -/

theorem toInt_ofInt_of_abs_lt {v : Int} (hw : 0 < w) (h : |v| < 2 ^ (w - 1)) : (BitVec.ofInt w v).toInt = v := by
  obtain ⟨low, high⟩ := abs_lt.1 h
  exact BitVec.toInt_ofInt_eq_self hw low.le high

theorem abs_sext_toInt_le {n : Nat} (h1 : 1 ≤ n) (h : n ≤ w) (x : BitVec w) : |(sext n x).toInt| ≤ 2 ^ (n - 1) := by
  obtain ⟨low, high⟩ := sext_toInt_bounds n h1 h x
  exact abs_le.2 ⟨low, by linarith⟩

/-- Q.LOAD doubles the multiplier without loss (R81). -/
theorem loadMultiplier_toInt {n : Nat} (h1 : 1 ≤ n) (h : n + 1 < w) (x : BitVec w) :
    (loadMultiplier n x).toInt = 2 * (sext n x).toInt := by
  have bound := abs_sext_toInt_le h1 (by omega) x
  have room : (2 : Int) * 2 ^ (n - 1) < 2 ^ (w - 1) := by
    rw [← pow_succ']; exact pow_lt_pow_right₀ (by norm_num) (by omega)
  refine toInt_ofInt_of_abs_lt (by omega) ?_
  rw [abs_mul, abs_two]
  linarith

theorem accumulate_zero_coefficient (n : Nat) (a pq : BitVec w) : accumulate n 0 a pq = pq := by
  rw [accumulate_eq, zero_mul, zero_mul, add_zero, BitVec.ofInt_toInt]

/-! ### What the delay table decides -/

theorem iterDelay_of_known {cfg : DelayConfig} {n : Nat} (h : (carrySelectDelay cfg n).isSome = true) (r : Radix) (add : Bool) :
    ∃ t, iterDelay cfg r n add = some t :=
  Option.isSome_iff_exists.1 (by rw [iterDelay, Option.isSome_map, h])

theorem preDelay_of_known {cfg : DelayConfig} {n : Nat} (h : (carrySelectDelay cfg n).isSome = true) (r : Radix) :
    ∃ t, preDelay cfg r n = some t := by
  cases r with
  | r4 => exact ⟨_, rfl⟩
  | r8 => exact Option.isSome_iff_exists.1 (by rw [preDelay, Option.isSome_map, h])

/-! ### One iteration -/

/-- An iteration without the case split on the coefficient: a zero coefficient accumulates nothing (R89). -/
theorem iterate_eq (cfg : DelayConfig) (r : Radix) (n : Nat) (last : Bool) (d : Datapath w) :
    d.iterate cfg r n last = (iterDelay cfg r n (addsMultiple (recode r d.q))).map fun t =>
      { a := d.a, q := sar r.k d.q, pq := accumulate n (recode r d.q) d.a (sar r.k d.pq),
        adds := d.adds + (addsMultiple (recode r d.q)).toNat,
        delay := d.delay + t + if last then 0 else cfg.latchDelay } := by
  by_cases h : recode r d.q = 0
  · simp [Datapath.iterate, addsMultiple, h, accumulate_zero_coefficient]
  · have add : addsMultiple (recode r d.q) = true := bne_iff_ne.2 h
    simp [Datapath.iterate, add]

/-! ### The loop invariant -/

/-- A, Q, PQ and ADDS after `count` iterations on the multiplicand `a` and the multiplier `b` (R92, R103). -/
structure AfterIterations (r : Radix) (n : Nat) (a b : Int) (count : Nat) (d : Datapath w) : Prop where
  multiplicand : d.a.toInt = a
  multiplier : d.q.toInt = (2 * b) >>> (r.k * count)
  product : d.pq.toInt = partialProduct r n a b count
  additions : d.adds = boothAdditions r b count

theorem load_afterIterations {cfg : DelayConfig} {r : Radix} {n : Nat} {x y : BitVec w} {d : Datapath w} (h1 : 1 ≤ n)
    (h : n + 1 < w) (hd : Datapath.load cfg r n x y = some d) :
    AfterIterations r n (sext n x).toInt (sext n y).toInt 0 d := by
  obtain ⟨t, -, rfl⟩ := Option.map_eq_some_iff.1 hd
  exact ⟨rfl, by simpa using loadMultiplier_toInt h1 h y, by simp [partialProduct], rfl⟩

variable {r : Radix} {n count : Nat} {a b : Int} {d d' : Datapath w}

/-- The window at the bottom of Q is the next group's (R50, R51, R65). -/
theorem AfterIterations.recode_eq (inv : AfterIterations r n a b count d) (hw : 4 ≤ w) :
    recode r d.q = boothDigit r b count := by
  rw [recode_eq_ofInt hw, inv.multiplier, boothDigit]

/-- An iteration keeps the loop invariant in a register of `2n + r` bits (R92, R95, R103). -/
theorem AfterIterations.iterate (inv : AfterIterations r n a b count d) {cfg : DelayConfig} {last : Bool} (hn : 1 ≤ n)
    (hw : 2 * n + r.k ≤ w) (hw4 : 4 ≤ w) (ha : |a| ≤ 2 ^ (n - 1)) (hcount : r.k * count ≤ n)
    (hd : d.iterate cfg r n last = some d') : AfterIterations r n a b (count + 1) d' := by
  have digit := inv.recode_eq hw4
  rw [iterate_eq, digit] at hd
  obtain ⟨t, -, rfl⟩ := Option.map_eq_some_iff.1 hd
  refine ⟨inv.multiplicand, ?_, ?_, ?_⟩
  · simp only [sar, BitVec.toInt_sshiftRight, inv.multiplier]
    rw [← Int.shiftRight_add, mul_add_one]
  · have fits : |partialProduct r n a b (count + 1)| < 2 ^ (w - 1) :=
      calc |partialProduct r n a b (count + 1)| ≤ 2 ^ (2 * n + r.k - 2) := abs_partialProduct_le b hn hcount ha
        _ < 2 ^ (w - 1) := pow_lt_pow_right₀ (by norm_num) (by omega)
    rw [accumulate_eq, sar_toInt, inv.product, inv.multiplicand, ← partialProduct_succ a b hcount]
    exact toInt_ofInt_of_abs_lt (by omega) fits
  · simp only [inv.additions, boothAdditions_succ]

/-- The remaining iterations run through and end after `M` of them (R88, R100). -/
theorem AfterIterations.iterations {cfg : DelayConfig} {rest : Nat} (inv : AfterIterations r n a b count d) (hn : 1 ≤ n)
    (hw : 2 * n + r.k ≤ w) (hw4 : 4 ≤ w) (ha : |a| ≤ 2 ^ (n - 1)) (known : (carrySelectDelay cfg n).isSome = true)
    (hrest : count + rest = r.iterations n) :
    ∃ d', Datapath.iterations cfg r n rest d = some d' ∧ AfterIterations r n a b (r.iterations n) d' := by
  induction rest generalizing count d with
  | zero => exact ⟨d, rfl, hrest ▸ inv⟩
  | succ rest ih =>
    obtain ⟨t, ht⟩ := iterDelay_of_known known r (addsMultiple (recode r d.q))
    obtain ⟨d₁, hd₁⟩ : ∃ d₁, d.iterate cfg r n (rest == 0) = some d₁ := ⟨_, by rw [iterate_eq, ht]; rfl⟩
    have inv₁ : AfterIterations r n a b (count + 1) d₁ :=
      inv.iterate hn hw hw4 ha (Radix.k_mul_le_of_lt_iterations (by omega)) hd₁
    obtain ⟨d', hd', inv'⟩ := ih inv₁ (by omega)
    exact ⟨d', by rw [Datapath.iterations, hd₁, Option.bind_some, hd'], inv'⟩

/-- FINAL's alignment shift leaves the product (R91, R102). -/
theorem AfterIterations.final_product (inv : AfterIterations r n a b (r.iterations n) d) (hn : 1 ≤ n)
    (low : -(2 ^ (n - 1)) ≤ b) (high : b < 2 ^ (n - 1)) : (sar (r.finalShift n) d.pq).toInt = a * b := by
  rw [sar_toInt, inv.product, partialProduct_iterations r a hn low high, Int.mul_ediv_cancel _ (by positivity)]

end Sys2Proof
end

section
/-! SUPPORT. The transaction-level function at any register width of at least 27 bits (R8, R85, R95, R106). -/

namespace Sys2Proof

open Machine

theorem bounds_of_supported {n : Nat} (h : n ∈ supportedWidths) : 4 ≤ n ∧ n ≤ 12 := by
  rw [mem_supportedWidths] at h; omega

/-- 27 bits are the `2n + r` bits of R95 for every supported width and both radices (R106). -/
theorem registerBound_of_supported {n w : Nat} (h : n ∈ supportedWidths) (r : Radix) (hw : 27 ≤ w) : 2 * n + r.k ≤ w := by
  have := r.k_le_three
  have := bounds_of_supported h
  omega

/-- A command of a supported width loads and iterates to the end, and its registers are then as R92 and R103 say. -/
theorem load_iterations_of_supported {w : Nat} {cfg : DelayConfig} {n : Nat} {x y : BitVec w} (r : Radix) (hw : 27 ≤ w)
    (hn : n ∈ supportedWidths) (known : (carrySelectDelay cfg n).isSome = true) :
    ∃ d, (Datapath.load cfg r n x y).bind (Datapath.iterations cfg r n (r.iterations n)) = some d ∧
      AfterIterations r n (sext n x).toInt (sext n y).toInt (r.iterations n) d := by
  obtain ⟨low, high⟩ := bounds_of_supported hn
  obtain ⟨pre, hpre⟩ := preDelay_of_known known r
  obtain ⟨d₀, hd₀⟩ : ∃ d₀, Datapath.load cfg r n x y = some d₀ := ⟨_, by rw [Datapath.load, hpre]; rfl⟩
  have inv₀ := load_afterIterations (by omega) (by omega) hd₀
  obtain ⟨d, hd, inv⟩ := inv₀.iterations (by omega) (registerBound_of_supported hn r hw) (by omega)
    (abs_sext_toInt_le (by omega) (by omega) x) known (Nat.zero_add _)
  exact ⟨d, by rw [hd₀, Option.bind_some, hd], inv⟩

/-- Settles O27: the loop invariant of R92 and R103 holds in any register of `2n + r` bits, and 27 are enough. -/
theorem productExactAtEveryRegisterWidth : Obligations.ProductExactAtEveryRegisterWidth := by
  intro w cfg r n x y hw acceptable known
  have hn := acceptable.1
  obtain ⟨low, high⟩ := bounds_of_supported hn
  obtain ⟨d, hd, inv⟩ := load_iterations_of_supported (x := x) (y := y) r hw hn known
  obtain ⟨ylow, yhigh⟩ := sext_toInt_bounds n (by omega) (by omega) y
  have run : multiply cfg r x y n = .ok
      { product := (sar (r.finalShift n) d.pq).toInt, iterations := r.iterations n, additions := d.adds, delay := d.delay } := by
    rw [multiply, (checkCommand_none_iff n x y).2 acceptable, hd]
  exact ⟨_, run, inv.final_product (by omega) ylow (by linarith), rfl, inv.additions⟩

end Sys2Proof
end

section
/-! SUPPORT. The step at each position of the sequencer (R22, R36, R47), and once for all operations what one may do that
answers a next state, by its footprint (R42). -/

namespace Sys2Proof.Machine

/-! ### The step at each position of the sequencer -/

theorem step_of_fetch_run {s s' : State} {i : Instr} (h : fetch s = .run i s') : step s = exec i s' := by rw [step, h]

theorem step_at_init {s : State} (hs : s.start = false) (hp : s.phase = .init) :
    step s = exec (initInstr s.cmd.radix) s :=
  step_of_fetch_run (by simp [fetch, hs, hp])

theorem step_at_iter {s : State} (hs : s.start = false) (hp : s.phase = .iter) : step s = exec (iterInstr s.radix) s :=
  step_of_fetch_run (by simp [fetch, hs, hp])

theorem step_at_final {s : State} (hs : s.start = false) (hp : s.phase = .final) : step s = exec (finalInstr s.radix) s :=
  step_of_fetch_run (by simp [fetch, hs, hp])

theorem fetch_at_rest {s : State} (hs : s.start = false) (hp : s.phase = .idle ∨ s.phase = .done ∨ s.phase = .fault) :
    fetch s = fetchOp s := by
  rcases hp with hp | hp | hp <;> simp [fetch, hs, hp]

theorem exec_initInstr (r : Radix) (s : State) : exec (initInstr r) s = seqInit r s := by cases r <;> rfl

theorem exec_iterInstr (r : Radix) (s : State) : exec (iterInstr r) s = seqIter r s := by cases r <;> rfl

theorem exec_finalInstr (r : Radix) (s : State) : exec (finalInstr r) s = seqFinal r s := by cases r <;> rfl

theorem seqIter_of_iter {r : Radix} {s : State} (hp : s.phase = .iter) (hi : s.i < s.m) :
    seqIter r s = .next (iterStep r s) := if_pos ⟨hp, hi⟩

theorem seqFinal_of_final {r : Radix} {s : State} (hp : s.phase = .final) : seqFinal r s = .next (finalStep r s) := if_pos hp

/-! ### What an operation that answers a next state has done -/

/-- The next states that an operation of each footprint can answer from `s`. -/
inductive Effect (s : State) : Footprint → State → Prop
  | command (c : Command) (rest : s.status ≠ .busy) : Effect s .command (runCommand c s)
  | init (position : s.phase = .init) : Effect s .init (initStep s.cmd.radix s)
  | iter (r : Radix) (position : s.phase = .iter) (notAll : s.i < s.m) : Effect s .iter (iterStep r s)
  | final (r : Radix) (position : s.phase = .final) : Effect s .final (finalStep r s)
  | writesPq (v : Word) : Effect s .writesPq (s.writePq v)
  | writesQ (v : Word) : Effect s .writesQ (s.writeQ v)
  | returns (v : Int) : Effect s .value (s.returns v)
  | raisesInLoad (c : Cause) (info : FaultInfo) (fails : c ≠ .none) : Effect s .writesQ (raise c info s)
  | raisesInValue (c : Cause) (info : FaultInfo) (fails : c ≠ .none) : Effect s .value (raise c info s)

section

variable {s t : State}

theorem effect_of_issueCommand {c : Command} (h : issueCommand c s = .next t) : Effect s .command t := by
  obtain ⟨rest, rfl⟩ := issueCommand_next h
  exact .command c rest

theorem effect_of_seqInit {r : Radix} (h : seqInit r s = .next t) : Effect s .init t := by
  obtain ⟨position, rfl, rfl⟩ := seqInit_next h
  exact .init position

theorem effect_of_seqIter {r : Radix} (h : seqIter r s = .next t) : Effect s .iter t := by
  obtain ⟨position, notAll, rfl⟩ := seqIter_next h
  exact .iter r position notAll

theorem effect_of_seqFinal {r : Radix} (h : seqFinal r s = .next t) : Effect s .final t := by
  obtain ⟨position, rfl⟩ := seqFinal_next h
  exact .final r position

theorem effect_of_writePq {v : Word} (h : Host.Outcome.next (s.writePq v) = (.next t : Host.Outcome State Fault Refusal)) :
    Effect s .writesPq t := by
  cases h; exact .writesPq v

theorem effect_of_writeQ {v : Word} (h : Host.Outcome.next (s.writeQ v) = (.next t : Host.Outcome State Fault Refusal)) :
    Effect s .writesQ t := by
  cases h; exact .writesQ v

theorem effect_of_returns {v : Int} (h : Host.Outcome.next (s.returns v) = (.next t : Host.Outcome State Fault Refusal)) :
    Effect s .value t := by
  cases h; exact .returns v

theorem effect_of_returnsDelay {n : Nat} {d : Option Nat}
    (h : Host.Outcome.next (returnsDelay n d s) = (.next t : Host.Outcome State Fault Refusal)) : Effect s .value t := by
  cases h
  obtain ⟨v, -, e⟩ | ⟨-, e⟩ := returnsDelay_cases n d s <;> rw [e]
  · exact .returns v
  · exact .raisesInValue _ _ nofun

/-- Every operation stays within its footprint (R42). -/
theorem exec_effect {i : Instr} (h : exec i s = .next t) : Effect s i.footprint t := by
  cases i
  case mul4 | mul8 => exact effect_of_issueCommand h
  case seqInit4 | seqInit8 => exact effect_of_seqInit h
  case seqIter4 | seqIter8 => exact effect_of_seqIter h
  case seqFinal4 | seqFinal8 => exact effect_of_seqFinal h
  case pqClr | pqSetHi | pqAcc | pqSar => exact effect_of_writePq h
  case qSar => exact effect_of_writeQ h
  case qLoad x n =>
    simp only [exec, execQLoad] at h
    split at h
    · exact effect_of_writeQ h
    · cases h; exact .raisesInLoad _ _ nofun
  case sext x n =>
    simp only [exec, execSext] at h
    split at h
    · exact effect_of_returns h
    · cases h; exact .raisesInValue _ _ nofun
  case dlyCsel | dlyPre | dlyIter => exact effect_of_returnsDelay h
  case dlyTotal r n adds =>
    simp only [exec, execDlyTotal] at h
    split at h
    · exact effect_of_returnsDelay h
    · cases h
  all_goals exact effect_of_returns h

end

end Sys2Proof.Machine
end

section
/-! SUPPORT. The control invariant `State.Coherent` (R22 to R27, R131): INIT, ITER, FINAL and the fetch keep it. -/

namespace Sys2Proof

theorem Radix.iterations_pos (r : Radix) (n : Nat) : 0 < r.iterations n := by
  rw [r.iterations_eq]; exact Nat.succ_pos _

end Sys2Proof

namespace Sys2Proof.Machine

/-! ### INIT and ITER, case by case -/

/-- INIT either takes a fault or begins the iterations (R87, R99, R125). -/
theorem initStep_cases (r : Radix) (s : State) :
    (∃ c info, c ≠ .none ∧ initStep r s = raise c info s) ∨
    ∃ d, s.cmd.acceptable ∧ initStep r s = (s.withDatapath d).begin r s.cmd.width.toNat := by
  rcases e : checkCommand s.cmd.width.toNat s.cmd.multiplicand s.cmd.multiplier with _ | ⟨c, info⟩
  · have acceptable : s.cmd.acceptable := (checkCommand_none_iff ..).1 e
    obtain ⟨pre, -, hi⟩ := initStep_of_acceptable r s acceptable
    exact .inr ⟨_, acceptable, hi⟩
  · refine .inl ⟨c, info, ?_, initStep_of_rejected r s e⟩
    rw [checkCommand_cause e]
    split <;> decide

/-- ITER at a supported width is one iteration of the datapath and an advance of the position (R88, R100). -/
theorem iterStep_of_iterate (r : Radix) {s : State} (h : s.n ∈ supportedWidths) :
    ∃ d, s.datapath.iterate delayConfig r s.n (s.i + 1 = s.m) = some d ∧ iterStep r s = (s.withDatapath d).advance := by
  obtain ⟨t, ht⟩ := iterDelay_of_supported h r (addsMultiple (recode r s.datapath.q))
  obtain ⟨d, hd⟩ : ∃ d, s.datapath.iterate delayConfig r s.n (s.i + 1 = s.m) = some d :=
    ⟨_, by rw [iterate_eq, ht]; rfl⟩
  exact ⟨d, hd, by rw [iterStep, hd]⟩

theorem iterate_a {w : Nat} {cfg : DelayConfig} {r : Radix} {n : Nat} {last : Bool} {d d' : Datapath w}
    (h : d.iterate cfg r n last = some d') : d'.a = d.a := by
  rw [iterate_eq] at h
  obtain ⟨t, -, rfl⟩ := Option.map_eq_some_iff.1 h
  rfl

/-- ITER either iterates or, at a width that no INIT leaves in N, takes a fault; A is kept (R16, R118). -/
theorem iterStep_cases (r : Radix) (s : State) :
    (∃ c info, c ≠ .none ∧ iterStep r s = raise c info s) ∨
    ∃ d, d.a = s.a ∧ iterStep r s = (s.withDatapath d).advance := by
  by_cases h : s.n ∈ supportedWidths
  · obtain ⟨d, hd, e⟩ := iterStep_of_iterate r h
    exact .inr ⟨d, iterate_a hd, e⟩
  · exact .inl ⟨.unsupportedWidth, _, nofun, iterStep_of_unsupported r s h⟩

/-! ### Coherence -/

theorem raise_coherent {c : Cause} (h : c ≠ .none) (info : FaultInfo) (s : State) : (raise c info s).Coherent := by
  simp [State.Coherent, h]

theorem initStep_coherent (r : Radix) (s : State) : (initStep r s).Coherent := by
  obtain ⟨c, info, fails, e⟩ | ⟨d, acceptable, e⟩ := initStep_cases r s <;> rw [e]
  · exact raise_coherent fails info s
  · simp [State.Coherent, State.Sized, acceptable.1, r.iterations_pos]

variable {s : State}

theorem iterStep_coherent (r : Radix) (h : s.Coherent) (hp : s.phase = .iter) : (iterStep r s).Coherent := by
  obtain ⟨-, -, iterating, -⟩ := h
  obtain ⟨busy, noCause, sized, notAll⟩ := iterating hp
  obtain ⟨d, -, e⟩ := iterStep_of_iterate r sized.1
  rw [e]
  by_cases last : s.i + 1 = s.m
  · simpa [State.Coherent, State.Sized, last, busy, noCause] using sized
  · have more : s.i + 1 < s.m := by omega
    simpa [State.Coherent, State.Sized, last, busy, noCause, hp, more] using sized

theorem finalStep_coherent (r : Radix) (h : s.Coherent) (hp : s.phase = .final) : (finalStep r s).Coherent := by
  obtain ⟨-, -, -, ending, -⟩ := h
  obtain ⟨-, noCause, sized, all⟩ := ending hp
  simpa [State.Coherent, State.Sized, noCause, all] using sized

/-- What a command is accepted from is not BUSY, which is all that coherence asks of the position INIT. -/
theorem accept_coherent (h : s.status ≠ .busy) : s.accept.Coherent := by simp [State.Coherent, h]

/-- The fetch hands a coherent state on: as it is, with a command accepted, or with the operation's bytes taken. -/
theorem fetch_run_coherent {s' : State} {i : Instr} (h : s.Coherent) (run : fetch s = .run i s') : s'.Coherent := by
  obtain ⟨-, rest, -, rfl⟩ | ⟨-, -, -, rfl⟩ | ⟨-, -, -, rfl⟩ | ⟨-, -, -, rfl⟩ | ⟨-, -, bytes, -, rfl⟩ :=
    fetch_run_cases run
  · exact accept_coherent rest
  all_goals exact h

end Sys2Proof.Machine
end

section
/-! SUPPORT. How many digits add (R94, R105) and what the iterations cost (R115 to R120), as functions of the multiplier. -/

namespace Sys2Proof

open Machine

/-! ### Digits that are 0 -/

theorem boothDigit_eq_zero_iff (r : Radix) (b : Int) (t : Nat) :
    boothDigit r b t = 0 ↔ signedLow (r.k * (t + 1)) b = signedLow (r.k * t) b := by
  have weight : (2 : Int) ^ (r.k * t) ≠ 0 := by positivity
  rw [signedLow_succ_group, add_eq_left, mul_eq_zero, or_iff_left weight]

/-- A group that begins at or above bit `n` of an `n`-bit multiplier has the digit 0 (R72). -/
theorem boothDigit_above_width {r : Radix} {n t : Nat} {b : Int} (hn : 1 ≤ n) (low : -(2 ^ (n - 1)) ≤ b)
    (high : b < 2 ^ (n - 1)) (h : n ≤ r.k * t) : boothDigit r b t = 0 := by
  have h' : n ≤ r.k * (t + 1) := h.trans (Nat.mul_le_mul_left _ t.le_succ)
  rw [boothDigit_eq_zero_iff, signedLow_of_range hn h' low high, signedLow_of_range hn h low high]

theorem addsMultiple_eq_false_iff (c : Int) : addsMultiple c = false ↔ c = 0 := by simp [addsMultiple]

/-- Only groups below `limit` add, where the digits are 0 from there on. -/
theorem boothAdditions_le_min {r : Radix} {b : Int} {limit : Nat} (h : ∀ t, limit ≤ t → boothDigit r b t = 0)
    (count : Nat) : boothAdditions r b count ≤ min count limit := by
  induction count with
  | zero => simp [boothAdditions, boothAdds]
  | succ count ih =>
    rw [boothAdditions_succ]
    by_cases hc : limit ≤ count
    · rw [(addsMultiple_eq_false_iff _).2 (h count hc), Bool.toNat_false]
      omega
    · have := (addsMultiple (boothDigit r b count)).toNat_le
      omega

theorem signedLow_of_no_additions {r : Radix} {b : Int} {count : Nat} (h : boothAdditions r b count = 0) :
    signedLow (r.k * count) b = 0 := by
  induction count with
  | zero => exact signedLow_zero b
  | succ count ih =>
    rw [boothAdditions_succ, Nat.add_eq_zero_iff] at h
    obtain ⟨before, here⟩ := h
    have digit : boothDigit r b count = 0 := (addsMultiple_eq_false_iff _).1 (Bool.toNat_eq_zero.1 here)
    rw [(boothDigit_eq_zero_iff ..).1 digit, ih before]

variable {r : Radix} {n : Nat} {b : Int}

/-- At most `ceil(n/r)` of the iterations add (R94, R105). -/
theorem boothAdditions_iterations_le (hn : 1 ≤ n) (low : -(2 ^ (n - 1)) ≤ b) (high : b < 2 ^ (n - 1)) :
    boothAdditions r b (r.iterations n) ≤ (n + r.k - 1) / r.k := by
  refine (boothAdditions_le_min (fun t ht => boothDigit_above_width hn low high ?_) _).trans (min_le_right ..)
  rw [mul_comm]
  calc n ≤ (n + r.k - 1) / r.k * r.k := by have := r.one_le_k; cases r <;> simp only [Radix.k] <;> omega
    _ ≤ t * r.k := Nat.mul_le_mul_right _ ht

/-- No iteration adds for the multiplier 0, and for no other (R25). -/
theorem boothAdditions_iterations_eq_zero_iff (hn : 1 ≤ n) (low : -(2 ^ (n - 1)) ≤ b) (high : b < 2 ^ (n - 1)) :
    boothAdditions r b (r.iterations n) = 0 ↔ b = 0 := by
  constructor
  · intro h
    have covered : n ≤ r.k * r.iterations n := by rw [r.iterations_eq]; exact (Nat.lt_mul_div_succ n r.one_le_k).le
    rw [← signedLow_of_range hn covered low high, signedLow_of_no_additions h]
  · rintro rfl
    have digit (t : Nat) : boothDigit r 0 t = 0 := (boothDigit_eq_zero_iff ..).2 (by simp [signedLow])
    exact Nat.le_zero.1 ((boothAdditions_le_min (fun t _ => digit t) _).trans (min_le_right ..))

/-! ### The delay of the iterations -/

theorem boothAdds_succ (r : Radix) (b : Int) (count : Nat) :
    boothAdds r b (count + 1) = boothAdds r b count ++ [addsMultiple (boothDigit r b count)] := by
  simp [boothAdds, List.range_succ]

theorem length_boothAdds (r : Radix) (b : Int) (count : Nat) : (boothAdds r b count).length = count := by
  simp [boothAdds]

theorem iterDelays_concat {cfg : DelayConfig} {adds : List Bool} {add : Bool} {ds d : Nat}
    (h : iterDelays cfg r n adds = some ds) (hd : iterDelay cfg r n add = some d) :
    iterDelays cfg r n (adds ++ [add]) = some (ds + d) := by
  induction adds generalizing ds with
  | nil => cases h; simp [iterDelays, hd]
  | cons first rest ih =>
    simp only [iterDelays] at h
    split at h
    · rename_i d₁ ds₁ h₁ h₂
      cases h
      simp [iterDelays, h₁, ih h₂, add_assoc]
    · cases h

/-- The iterations' delays depend on how many of them add only (R118, R120). -/
theorem iterDelays_eq {cfg : DelayConfig} {csd : Nat} (h : carrySelectDelay cfg n = some csd) (adds : List Bool) :
    iterDelays cfg r n adds =
      some (adds.count true * max (addPathDelay cfg csd true) (lookupPathDelay cfg r) +
        adds.count false * max (addPathDelay cfg csd false) (lookupPathDelay cfg r)) := by
  induction adds with
  | nil => simp [iterDelays]
  | cons add rest ih =>
    rw [iterDelays, ih, iterDelay, h]
    cases add <;> simp only [Option.map_some, List.count_cons_self, List.count_cons_of_ne, ne_eq, reduceCtorEq,
      not_false_eq_true, Option.some.injEq] <;> ring

/-- An iteration adds its own delay and, but for the last one, the latch delay to DELAY (R118, R119). -/
theorem delayAfter_succ {count d t : Nat} (h : delayAfter r n b count = some d)
    (ht : iterDelay delayConfig r n (addsMultiple (boothDigit r b count)) = some t) (more : count < r.iterations n) :
    delayAfter r n b (count + 1) =
      some (d + t + if count + 1 = r.iterations n then 0 else delayConfig.latchDelay) := by
  unfold delayAfter at h
  split at h
  · rename_i pre its hpre hits
    cases h
    rw [delayAfter, hpre, boothAdds_succ, iterDelays_concat hits ht]
    by_cases last : count + 1 = r.iterations n
    · have latches : min (count + 1) (r.iterations n - 1) = min count (r.iterations n - 1) := by omega
      simp only [latches, if_pos last, Option.some.injEq]; omega
    · have latches : min (count + 1) (r.iterations n - 1) = min count (r.iterations n - 1) + 1 := by omega
      simp only [latches, if_neg last, Option.some.injEq]; ring
  · cases h

/-- DELAY at the end of a multiplication: precompute, additions, iterations without one, and latches (R120). -/
theorem delayAfter_iterations {csd pre : Nat} (hcsd : carrySelectDelay delayConfig n = some csd)
    (hpre : preDelay delayConfig r n = some pre) :
    delayAfter r n b (r.iterations n) =
      some (pre + (boothAdditions r b (r.iterations n) * max (csd + 2) (r.k + 2) +
        (r.iterations n - boothAdditions r b (r.iterations n)) * max 2 (r.k + 2)) + 3 * (r.iterations n - 1)) := by
  have total : boothAdditions r b (r.iterations n) + (boothAdds r b (r.iterations n)).count false = r.iterations n := by
    rw [boothAdditions, List.count_true_add_count_false, length_boothAdds]
  have without : (boothAdds r b (r.iterations n)).count false =
      r.iterations n - boothAdditions r b (r.iterations n) := by omega
  rw [delayAfter, hpre, iterDelays_eq hcsd, without, Nat.min_eq_right (Nat.sub_le ..)]
  rfl

/-- DELAY at the end of a multiplication is in 22..130 (R26). -/
theorem delayAfter_iterations_bounds {d : Nat} (hn : n ∈ supportedWidths) (low : -(2 ^ (n - 1)) ≤ b)
    (high : b < 2 ^ (n - 1)) (h : delayAfter r n b (r.iterations n) = some d) : 22 ≤ d ∧ d ≤ 130 := by
  obtain ⟨csd, hcsd⟩ := carrySelectDelay_of_supported hn
  obtain ⟨pre, hpre⟩ := preDelay_of_supported hn r
  have additions := boothAdditions_iterations_le (r := r) (by have := bounds_of_supported hn; omega) low high
  rw [delayAfter_iterations hcsd hpre, Option.some.injEq] at h
  generalize boothAdditions r b (r.iterations n) = a at h additions
  obtain rfl | rfl | rfl | rfl | rfl := (mem_supportedWidths n).1 hn
  all_goals
    cases hcsd
    cases r <;> cases hpre <;> simp [Radix.iterations, Radix.k, complementDelay, delayConfig] at h additions <;> omega

end Sys2Proof
end

section
/-! SUPPORT. The loop invariant `State.LoopInvariant` (R92, R103) on the state: INIT begins it, ITER keeps it, FINAL turns it
into the product; and the state in which a whole command runs FINAL. -/

namespace Sys2Proof.Machine

variable {s : State}

theorem State.multiplierValue_range (h : s.cmd.width.toNat ∈ supportedWidths) :
    -(2 ^ (s.cmd.width.toNat - 1)) ≤ s.multiplierValue ∧ s.multiplierValue < 2 ^ (s.cmd.width.toNat - 1) := by
  obtain ⟨four, twelve⟩ := bounds_of_supported h
  obtain ⟨low, high⟩ := sext_toInt_bounds s.cmd.width.toNat (by omega) (by omega) s.cmd.multiplier
  exact ⟨low, by rw [State.multiplierValue]; linarith⟩

/-! ### INIT, ITER and FINAL -/

/-- The loop invariant says of the registers what `AfterIterations` says of a datapath. -/
theorem State.LoopInvariant.afterIterations (h : s.LoopInvariant) (hp : s.phase = .iter ∨ s.phase = .final) :
    AfterIterations s.radix s.n s.multiplicandValue s.multiplierValue s.i s.datapath := by
  obtain ⟨-, -, multiplicand, multiplier, product, additions, -⟩ := h hp
  exact ⟨multiplicand, multiplier, product, additions⟩

theorem State.LoopInvariant.abs_multiplicandValue_le (h : s.LoopInvariant) (hp : s.phase = .iter ∨ s.phase = .final)
    (supported : s.n ∈ supportedWidths) : |s.multiplicandValue| ≤ 2 ^ (s.n - 1) := by
  obtain ⟨width, -⟩ := h hp
  rw [width] at supported ⊢
  obtain ⟨four, twelve⟩ := bounds_of_supported supported
  exact abs_sext_toInt_le (by omega) (by omega) s.cmd.multiplicand

theorem initStep_loopInvariant (h : s.cmd.acceptable) : (initStep s.cmd.radix s).LoopInvariant := by
  obtain ⟨pre, hpre, e⟩ := initStep_of_acceptable s.cmd.radix s h
  obtain ⟨four, twelve⟩ := bounds_of_supported h.1
  have load : Datapath.load delayConfig s.cmd.radix s.cmd.width.toNat s.cmd.multiplicand s.cmd.multiplier = some
      { a := sext s.cmd.width.toNat s.cmd.multiplicand, q := loadMultiplier s.cmd.width.toNat s.cmd.multiplier, pq := 0,
        adds := 0, delay := pre } := by rw [Datapath.load, hpre]; rfl
  obtain ⟨multiplicand, multiplier, product, additions⟩ := load_afterIterations (by omega) (by omega) load
  have delay : some pre = delayAfter s.cmd.radix s.cmd.width.toNat s.multiplierValue 0 := by
    simp [delayAfter, hpre, boothAdds, iterDelays]
  rw [e]
  exact fun _ => ⟨rfl, rfl, multiplicand, multiplier, product, additions, delay⟩

theorem iterStep_loopInvariant (coherent : s.Coherent) (inv : s.LoopInvariant) (hp : s.phase = .iter) :
    (iterStep s.radix s).LoopInvariant := by
  obtain ⟨-, -, iterating, -⟩ := coherent
  obtain ⟨-, -, ⟨supported, hm⟩, notAll⟩ := iterating hp
  obtain ⟨four, twelve⟩ := bounds_of_supported supported
  obtain ⟨width, radix, -, -, -, -, delay⟩ := inv (.inl hp)
  have before := inv.afterIterations (.inl hp)
  have room := registerBound_of_supported supported s.radix (w := 64) (by norm_num)
  have small := inv.abs_multiplicandValue_le (.inl hp) supported
  obtain ⟨d, hd, e⟩ := iterStep_of_iterate s.radix supported
  obtain ⟨multiplicand, multiplier, product, additions⟩ :=
    before.iterate (by omega) room (by norm_num) small (Radix.k_mul_le_of_lt_iterations (hm ▸ notAll)) hd
  simp only [iterate_eq, before.recode_eq (by norm_num), decide_eq_true_eq] at hd
  obtain ⟨t, ht, rfl⟩ := Option.map_eq_some_iff.1 hd
  have delay' := delayAfter_succ delay.symm ht (hm ▸ notAll)
  rw [← hm] at delay'
  rw [e]
  exact fun _ => ⟨width, radix, multiplicand, multiplier, product, additions, delay'.symm⟩

/-- FINAL's alignment shift leaves the product (R91, R92, R102, R103). -/
theorem finalStep_pq_toInt (coherent : s.Coherent) (inv : s.LoopInvariant) (hp : s.phase = .final) :
    (finalStep s.radix s).pq.toInt = s.multiplicandValue * s.multiplierValue := by
  obtain ⟨-, -, -, ending, -⟩ := coherent
  obtain ⟨-, -, ⟨supported, hm⟩, all⟩ := ending hp
  obtain ⟨width, -⟩ := inv (.inr hp)
  have after := inv.afterIterations (.inr hp)
  rw [all, hm] at after
  rw [width] at supported after
  obtain ⟨four, twelve⟩ := bounds_of_supported supported
  obtain ⟨low, high⟩ := State.multiplierValue_range supported
  rw [finalStep_pq, width]
  exact after.final_product (by omega) low high

theorem finalStep_record_of_loopInvariant (coherent : s.Coherent) (inv : s.LoopInvariant) (hp : s.phase = .final) :
    (finalStep s.radix s).record = { product := s.multiplicandValue * s.multiplierValue, iterations := s.m,
                                     additions := s.adds, delay := s.delay } := by
  rw [← finalStep_pq_toInt coherent inv hp]; rfl

/-! ### All iterations -/

/-- What every ITER keeps holds in FINAL, which the iterations that are left reach (R22, R88, R100). -/
theorem iterSteps_reaches_final {P : State → Prop} {r : Radix} {count : Nat}
    (keeps : ∀ u : State, u.Coherent → u.phase = .iter → P u → P (iterStep r u)) (coherent : s.Coherent)
    (hp : s.phase = .iter) (hcount : s.i + count = s.m) (holds : P s) :
    (iterSteps r count s).Coherent ∧ (iterSteps r count s).phase = .final ∧ P (iterSteps r count s) := by
  induction count generalizing s with
  | zero =>
    obtain ⟨-, -, iterating, -⟩ := coherent
    obtain ⟨-, -, -, notAll⟩ := iterating hp
    omega
  | succ count ih =>
    have coherent' := iterStep_coherent r coherent hp
    have holds' := keeps s coherent hp holds
    obtain ⟨-, -, iterating, -⟩ := coherent
    obtain ⟨-, -, ⟨supported, -⟩, -⟩ := iterating hp
    obtain ⟨d, -, e⟩ := iterStep_of_iterate r supported
    have phase : (iterStep r s).phase = if s.i + 1 = s.m then .final else .iter := by rw [e]; simp [hp]
    have hi : (iterStep r s).i + count = (iterStep r s).m := by rw [e]; simp; omega
    rw [iterSteps]
    cases count with
    | zero => exact ⟨coherent', phase.trans (if_pos (by omega)), holds'⟩
    | succ count => exact ih coherent' (phase.trans (if_neg (by omega))) hi holds'

/-- The states in which the command `c`, with `ops` lined up, is about to run FINAL. -/
structure AboutToFinish (c : Command) (ops : List Byte) (u : State) : Prop where
  coherent : u.Coherent
  inv : u.LoopInvariant
  phase : u.phase = .final
  cmd : u.cmd = c
  ops_eq : u.ops = ops

/-- A whole command that INIT accepts ends with FINAL, from a state that meets both invariants (R86, R98). -/
theorem runCommand_finishes {c : Command} (h : c.acceptable) (s : State) :
    ∃ u, AboutToFinish c s.ops u ∧ runCommand c s = finalStep u.radix u := by
  obtain ⟨pre, -, e⟩ := initStep_of_acceptable c.radix (s.drive c).accept h
  have run := runCommand_of_acceptable c s h
  have coherent := initStep_coherent c.radix (s.drive c).accept
  have inv : (initStep c.radix (s.drive c).accept).LoopInvariant := initStep_loopInvariant (s := (s.drive c).accept) h
  generalize hs₀ : initStep c.radix (s.drive c).accept = s₀ at *
  have keeps (u : State) (hu : u.Coherent) (hp : u.phase = .iter)
      (holds : u.LoopInvariant ∧ u.cmd = c ∧ u.ops = s.ops) :
      (iterStep c.radix u).LoopInvariant ∧ (iterStep c.radix u).cmd = c ∧ (iterStep c.radix u).ops = s.ops := by
    obtain ⟨inv, cmd, ops⟩ := holds
    obtain ⟨-, radix, -⟩ := inv (.inl hp)
    have inv' := iterStep_loopInvariant hu inv hp
    rw [radix, cmd] at inv'
    refine ⟨inv', ?_⟩
    obtain ⟨_, _, -, e⟩ | ⟨_, -, e⟩ := iterStep_cases c.radix u <;> rw [e] <;> exact ⟨cmd, ops⟩
  obtain ⟨coherent', phase, inv', cmd, ops⟩ :=
    iterSteps_reaches_final (count := c.radix.iterations c.width.toNat) keeps coherent (by rw [e]; rfl) (by rw [e]; simp)
      ⟨inv, by rw [e]; rfl, by rw [e]; rfl⟩
  obtain ⟨-, radix, -⟩ := inv' (.inr phase)
  exact ⟨_, ⟨coherent', inv', phase, cmd, ops⟩, by rw [run, radix, cmd]⟩

/-- A whole command takes the fault of INIT's checks, or finishes (R86, R98, R125). -/
theorem runCommand_cases (c : Command) (s : State) :
    (∃ cause info, checkCommand c.width.toNat c.multiplicand c.multiplier = some (cause, info) ∧ cause ≠ .none ∧
      runCommand c s = raise cause info (s.drive c).accept) ∨
    (c.acceptable ∧ ∃ u, AboutToFinish c s.ops u ∧ runCommand c s = finalStep u.radix u) := by
  rcases e : checkCommand c.width.toNat c.multiplicand c.multiplier with _ | ⟨cause, info⟩
  · have acceptable : c.acceptable := (checkCommand_none_iff ..).1 e
    exact .inr ⟨acceptable, runCommand_finishes acceptable s⟩
  · refine .inl ⟨cause, info, rfl, ?_, runCommand_of_rejected c s e⟩
    rw [checkCommand_cause e]
    split <;> decide

/-! ### What is known of the registers when a command finishes -/

section

variable {c : Command} {ops : List Byte} {u : State}

/-- The control registers and the counters in FINAL are functions of the command (R94, R105, R120). -/
theorem AboutToFinish.registers (hu : AboutToFinish c ops u) :
    u.radix = c.radix ∧ u.m = c.radix.iterations c.width.toNat ∧
      u.adds = boothAdditions c.radix (sext c.width.toNat c.multiplier).toInt (c.radix.iterations c.width.toNat) ∧
      some u.delay = delayAfter c.radix c.width.toNat (sext c.width.toNat c.multiplier).toInt
        (c.radix.iterations c.width.toNat) := by
  obtain ⟨⟨-, -, -, ending, -⟩, inv, hp, rfl, -⟩ := hu
  obtain ⟨-, -, ⟨-, hm⟩, all⟩ := ending hp
  obtain ⟨width, radix, -, -, -, additions, delay⟩ := inv (.inr hp)
  rw [radix, width] at hm
  rw [all, hm, radix] at additions
  rw [all, hm, radix, width] at delay
  exact ⟨radix, hm, additions, delay⟩

/-- The Result of a command: the product, and the counters as they stand in FINAL (R28). -/
theorem AboutToFinish.record (hu : AboutToFinish c ops u) :
    (finalStep u.radix u).record =
      { product := (sext c.width.toNat c.multiplicand).toInt * (sext c.width.toNat c.multiplier).toInt, iterations := u.m,
        additions := u.adds, delay := u.delay } := by
  obtain ⟨coherent, inv, hp, rfl, -⟩ := hu
  exact finalStep_record_of_loopInvariant coherent inv hp

theorem AboutToFinish.cause (hu : AboutToFinish c ops u) : u.cause = .none := by
  obtain ⟨⟨-, -, -, ending, -⟩, -, hp, -, -⟩ := hu
  obtain ⟨-, noCause, -⟩ := ending hp
  exact noCause

end

/-! ### What a whole command leaves behind -/

theorem runCommand_coherent (c : Command) (s : State) : (runCommand c s).Coherent := by
  obtain ⟨cause, info, -, fails, run⟩ | ⟨-, u, hu, run⟩ := runCommand_cases c s <;> rw [run]
  · exact raise_coherent fails info _
  · exact finalStep_coherent _ hu.coherent hu.phase

@[simp] theorem runCommand_ops (c : Command) (s : State) : (runCommand c s).ops = s.ops := by
  obtain ⟨cause, info, -, -, run⟩ | ⟨-, u, hu, run⟩ := runCommand_cases c s <;> rw [run]
  · rfl
  · exact hu.ops_eq

/-- What the host sees after a command is a function of the command (R32). -/
theorem runCommand_outputs_eq (c : Command) (s s' : State) : (runCommand c s).outputs = (runCommand c s').outputs := by
  obtain ⟨cause, info, e, -, run⟩ | ⟨acceptable, u, hu, run⟩ := runCommand_cases c s
  · rw [run, runCommand_of_rejected c s' e]; rfl
  · obtain ⟨u', hu', run'⟩ := runCommand_finishes acceptable s'
    obtain ⟨-, iterations, additions, delay⟩ := hu.registers
    obtain ⟨-, iterations', additions', delay'⟩ := hu'.registers
    have cost : u.delay = u'.delay := Option.some.inj (delay.trans delay'.symm)
    rw [run, run']
    refine State.outputs_eq _ _ rfl (hu.cause.trans hu'.cause.symm) ?_
    rw [finalStep_result, finalStep_result, hu.record, hu'.record, iterations, iterations', additions, additions', cost]

/-- The ranges of M, ADDS and DELAY after a command (R24, R25, R26, R94, R105). -/
theorem runCommand_counters {c : Command} (h : c.acceptable) (s : State) :
    (2 ≤ (runCommand c s).m ∧ (runCommand c s).m ≤ 7) ∧ (22 ≤ (runCommand c s).delay ∧ (runCommand c s).delay ≤ 130) ∧
      (runCommand c s).adds ≤ (c.width.toNat + c.radix.k - 1) / c.radix.k ∧
      ((runCommand c s).adds = 0 ↔ (sext c.width.toNat c.multiplier).toInt = 0) := by
  obtain ⟨u, hu, run⟩ := runCommand_finishes h s
  obtain ⟨-, iterations, additions, delay⟩ := hu.registers
  obtain ⟨four, twelve⟩ := bounds_of_supported h.1
  obtain ⟨low, high⟩ := sext_toInt_bounds c.width.toNat (by omega) (by omega) c.multiplier
  have below : (sext c.width.toNat c.multiplier).toInt < 2 ^ (c.width.toNat - 1) := by linarith
  rw [run, finalStep_m, finalStep_delay, finalStep_adds]
  refine ⟨?_, delayAfter_iterations_bounds h.1 low below delay.symm, ?_, ?_⟩
  · rw [iterations]
    cases c.radix <;> simp only [Radix.iterations, Radix.k] <;> omega
  · rw [additions]
    exact boothAdditions_iterations_le (by omega) low below
  · rw [additions]
    exact boothAdditions_iterations_eq_zero_iff (by omega) low below

/-! ### What each effect keeps -/

section

variable {f : Footprint} {t : State}

theorem Effect.coherent (effect : Effect s f t) (h : s.Coherent) : t.Coherent := by
  cases effect with
  | command c => exact runCommand_coherent c s
  | init => exact initStep_coherent _ s
  | iter r hp => exact iterStep_coherent r h hp
  | final r hp => exact finalStep_coherent r h hp
  | writesPq | writesQ | returns => exact h
  | raisesInLoad c info fails | raisesInValue c info fails => exact raise_coherent fails info s

theorem Effect.control_frame (effect : Effect s f t) :
    t.ops = s.ops ∧
    (f ≠ .command → t.cmd = s.cmd ∧ t.start = s.start ∧
      (f ≠ .init → t.a = s.a ∧ t.n = s.n ∧ t.radix = s.radix ∧ t.m = s.m ∧
        (f ≠ .iter → t.adds = s.adds ∧ t.delay = s.delay ∧ t.i = s.i))) := by
  cases effect with
  | command c => simp
  | init =>
    obtain ⟨c, info, -, e⟩ | ⟨d, -, e⟩ := initStep_cases s.cmd.radix s <;> simp [e]
  | iter r =>
    obtain ⟨c, info, -, e⟩ | ⟨d, sameA, e⟩ := iterStep_cases r s
    · simp [e]
    · simp [e, sameA]
  | final | writesPq | writesQ | returns | raisesInLoad | raisesInValue => simp

theorem Effect.record_frame (effect : Effect s f t) (hf : f ≠ .final)
    (hc : f ≠ .command) : t.record = s.record ∧ (t.status = .done → s.status = .done) := by
  cases effect with
  | command => exact absurd rfl hc
  | final => exact absurd rfl hf
  | init =>
    obtain ⟨c, info, -, e⟩ | ⟨d, -, e⟩ := initStep_cases s.cmd.radix s <;> simp [e]
  | iter r =>
    obtain ⟨c, info, -, e⟩ | ⟨d, -, e⟩ := iterStep_cases r s <;> simp [e]
  | writesPq | writesQ | returns | raisesInLoad | raisesInValue => simp

end

end Sys2Proof.Machine
end

section
/-! SUPPORT. The statements about the state, its control registers and its two invariants (R15 to R36). -/

namespace Sys2Proof

open Machine

/-! ### Invariants -/

/-- Settles O12: coherence passes from the state through the fetch to whatever the operation selected can do. -/
theorem stepKeepsCoherent : Obligations.StepKeepsCoherent := by
  intro s t h stepped
  obtain ⟨-, rfl⟩ | ⟨i, s', selected, run⟩ := step_next_cases stepped
  · exact h
  · exact (exec_effect run).coherent (fetch_run_coherent h selected)

/-- Settles O11: at reset the position is IDLE. -/
theorem resetMeetsInvariants : Obligations.ResetMeetsInvariants :=
  ⟨by decide, fun h => absurd h (by decide)⟩

/-- Settles O14, from the loop invariant in FINAL. -/
theorem finalDeliversProduct : Obligations.FinalDeliversProduct := by
  intro s coherent inv hs hp
  refine ⟨finalStep s.radix s, ?_, rfl, rfl, finalStep_pq_toInt coherent inv hp, ?_⟩
  · rw [step_at_final hs hp, exec_finalInstr, seqFinal_of_final hp]
  · rw [finalStep_result, finalStep_record_of_loopInvariant coherent inv hp]

/-- Settles O15: at the supported width that coherence promises ITER has its delay, and FINAL has no check at all. -/
theorem iteratingNeverFaults : Obligations.IteratingNeverFaults := by
  intro s coherent hs hp
  obtain ⟨-, -, iterating, ending, -⟩ := coherent
  rcases hp with hp | hp
  · obtain ⟨busy, noCause, ⟨supported, -⟩, notAll⟩ := iterating hp
    obtain ⟨d, -, e⟩ := iterStep_of_iterate s.radix supported
    refine ⟨(s.withDatapath d).advance, ?_, by simp [busy], noCause, hs, fun _ => ⟨?_, rfl⟩, by simp [hp]⟩
    · rw [step_at_iter hs hp, exec_iterInstr, seqIter_of_iter hp notAll, e]
    · by_cases last : s.i + 1 = s.m
      · exact .inr (if_pos last)
      · have more : s.i + 1 < s.m := by omega
        exact .inl ⟨(if_neg last).trans hp, more⟩
  · obtain ⟨-, noCause, -⟩ := ending hp
    refine ⟨finalStep s.radix s, ?_, by simp, noCause, hs, by simp [hp], fun _ => rfl⟩
    rw [step_at_final hs hp, exec_finalInstr, seqFinal_of_final hp]

/-- Settles O16: PQ is a partial product, and partial products are bounded. -/
theorem doubleRegisterStaysBounded : Obligations.DoubleRegisterStaysBounded := by
  rintro s ⟨-, -, iterating, ending, -⟩ inv hp
  have sized : s.Sized ∧ s.i ≤ s.m := by
    rcases hp with hp | hp
    · obtain ⟨-, -, sized, notAll⟩ := iterating hp
      exact ⟨sized, notAll.le⟩
    · obtain ⟨-, -, sized, all⟩ := ending hp
      exact ⟨sized, all.le⟩
  obtain ⟨⟨supported, hm⟩, hi⟩ := sized
  obtain ⟨four, twelve⟩ := bounds_of_supported supported
  obtain ⟨-, -, -, -, product, -, -⟩ := inv hp
  have small := inv.abs_multiplicandValue_le hp supported
  have started := s.radix.iterations_pos s.n
  rw [product]
  exact abs_le.1 (abs_partialProduct_le _ (by omega) (Radix.k_mul_le_of_lt_iterations (by omega)) small)

/-! ### Whole commands -/

/-- Settles O25: fault, or Result, a command's outputs are a function of the command. -/
theorem commandsForgetEarlierState : Obligations.CommandsForgetEarlierState := fun s s' _ _ _ hs hs' =>
  ⟨⟨_, _, issueCommand_of_not_busy _ s hs, issueCommand_of_not_busy _ s' hs', runCommand_outputs_eq _ s s'⟩,
    ⟨_, _, issueCommand_of_not_busy _ s hs, issueCommand_of_not_busy _ s' hs', runCommand_outputs_eq _ s s'⟩⟩

/-- Settles O32: `ceil(n/r)` is what R94 and R105 give for each supported width. -/
theorem countersStayInRange : Obligations.CountersStayInRange := by
  intro s a b w hs acceptable
  have width := (mem_supportedWidths _).1 acceptable.1
  obtain ⟨⟨m2, m7⟩, ⟨d22, d130⟩, adds, zero⟩ :=
    runCommand_counters (c := { radix := .r4, width := w, multiplicand := a, multiplier := b }) acceptable s
  obtain ⟨⟨m2', m7'⟩, ⟨d22', d130'⟩, adds', zero'⟩ :=
    runCommand_counters (c := { radix := .r8, width := w, multiplicand := a, multiplier := b }) acceptable s
  refine ⟨⟨_, issueCommand_of_not_busy _ s hs, m2, m7, d22, d130, adds.trans ?_, zero⟩,
    ⟨_, issueCommand_of_not_busy _ s hs, m2', m7', d22', d130', adds'.trans ?_, zero'⟩⟩
  · simp only [Radix.k]; omega
  · simp only [Radix.k]; split_ifs <;> omega

/-! ### Frames -/

/-- Settles O58, footprint by footprint. -/
theorem onlySequencerWritesControl : Obligations.OnlySequencerWritesControl :=
  fun _ _ _ run => (exec_effect run).control_frame

/-- Settles O60: the Result shown is the record, and only FINAL and the whole commands write it. -/
theorem onlyFinalMakesDone : Obligations.OnlyFinalMakesDone := by
  intro i s t run hf hc
  obtain ⟨record, wasDone⟩ := (exec_effect run).record_frame hf hc
  refine ⟨record, fun done => ⟨wasDone done, ?_⟩⟩
  rw [t.result_of_done done, s.result_of_done (wasDone done), record]

/-! ### The double register -/

/-- Settles O45: floor quotient and remainder by `2^n`. -/
theorem halvesMakeUpDoubleRegister : Obligations.HalvesMakeUpDoubleRegister := by
  intro s hn
  refine ⟨highHalf s.n s.pq, lowHalf s.n s.pq, rfl, rfl, rfl, highHalf_eq_div s.n s.pq, lowHalf_lt s.n s.pq,
    (halves_sum s.n hn s.pq).symm, fun i => ?_⟩
  rw [lowHalf, Nat.testBit_mod_two_pow, BitVec.testBit_toNat]

/-! ### Outputs and the step -/

/-- Settles O6, by the codes and the two readings of the Result. -/
theorem outputsAreTheCodes : Obligations.OutputsAreTheCodes := by
  intro s
  refine ⟨?_, ?_, s.result_of_done, s.result_of_not_done⟩
  · rw [State.outputs]; cases s.status <;> rfl
  · rw [State.outputs]; cases s.cause <;> rfl

/-- Settles O7: at rest the fetch looks at the operations lined up and at nothing else. -/
theorem stepRunsLinedUpOperation : Obligations.StepRunsLinedUpOperation := by
  intro s hs hp
  have fetched := fetch_at_rest hs hp
  constructor
  · intro i rest decoded
    exact step_of_fetch_run (fetched.trans (fetchOp_of_decode decoded))
  · intro nothing
    rw [step, fetched, fetchOp, if_pos nothing]

/-- Settles O8, position by position. -/
theorem stepRunsSequencer : Obligations.StepRunsSequencer := by
  intro s hs
  refine ⟨?_, ?_, ?_, ?_, ?_, ?_⟩ <;> intro hp hr
  · rw [step_at_init hs hp, hr]; rfl
  · rw [step_at_init hs hp, hr]; rfl
  · rw [step_at_iter hs hp, hr]; rfl
  · rw [step_at_iter hs hp, hr]; rfl
  · rw [step_at_final hs hp, hr]; rfl
  · rw [step_at_final hs hp, hr]; rfl

/-- Settles O35, FINAL of either radix being one shift and the production of the Result. -/
theorem finalShiftsAndCompletes : Obligations.FinalShiftsAndCompletes := fun s hp =>
  ⟨⟨finalStep .r4 s, seqFinal_of_final hp, sar_toInt _ s.pq, rfl⟩,
    ⟨finalStep .r8 s, seqFinal_of_final hp, sar_toInt _ s.pq, rfl⟩⟩

end Sys2Proof
end

section
/-! SUPPORT. The steps inside a command simulate the transaction-level function (R85): on the registers they compute what
`Datapath.load` and `Datapath.iterations` compute, and FINAL reads the Result that `multiply` answers. -/

namespace Sys2Proof.Machine

variable {s : State} {r : Radix}

/-- The command's outcome as the host sees it: a complete Result, or a fault's cause and no Result (R48, R128). -/
def State.Shows (t : State) : Except Cause Result → Prop
  | .ok x => t.status = .done ∧ t.cause = .none ∧ t.result = some x
  | .error c => t.status = .fault ∧ t.cause = c ∧ t.result = none

/-- INIT loads the datapath that the transaction-level function loads (R87, R99). -/
theorem initStep_of_load {d : Datapath 64} (h : s.cmd.acceptable)
    (load : Datapath.load delayConfig r s.cmd.width.toNat s.cmd.multiplicand s.cmd.multiplier = some d) :
    initStep r s = (s.withDatapath d).begin r s.cmd.width.toNat := by
  rw [initStep, (checkCommand_none_iff ..).2 h, load]

/-- The iterations that are left run on the registers as `Datapath.iterations` runs on the datapath (R88, R100). -/
theorem iterSteps_of_iterations {count : Nat} {d : Datapath 64} (left : s.i + count = s.m)
    (run : Datapath.iterations delayConfig r s.n count s.datapath = some d) :
    (iterSteps r count s).datapath = d ∧ (iterSteps r count s).n = s.n ∧ (iterSteps r count s).m = s.m ∧
      (iterSteps r count s).cause = s.cause := by
  induction count generalizing s with
  | zero => exact ⟨Option.some.inj run, rfl, rfl, rfl⟩
  | succ count ih =>
    obtain ⟨d₁, first, rest⟩ := Option.bind_eq_some_iff.1 run
    have last : (count == 0) = decide (s.i + 1 = s.m) := by
      rw [Bool.eq_iff_iff, beq_iff_eq, decide_eq_true_iff]; omega
    have e : iterStep r s = (s.withDatapath d₁).advance := by rw [iterStep, ← last, first]
    have left' : s.i + 1 + count = s.m := by omega
    rw [iterSteps, e]
    exact ih (s := (s.withDatapath d₁).advance) left' rest

/-- FINAL after the iterations that are left shows the Result read from the datapath's last state (R28, R91, R102). -/
theorem finalStep_shows_of_iterations {count : Nat} {d : Datapath 64} (left : s.i + count = s.m)
    (run : Datapath.iterations delayConfig r s.n count s.datapath = some d) (noCause : s.cause = .none) :
    (finalStep r (iterSteps r count s)).Shows (.ok
      { product := (sar (r.finalShift s.n) d.pq).toInt, iterations := s.m, additions := d.adds, delay := d.delay }) := by
  obtain ⟨rfl, n, m, cause⟩ := iterSteps_of_iterations left run
  refine ⟨rfl, cause.trans noCause, ?_⟩
  rw [finalStep_result, finalStep_record, n, m]
  rfl

/-- A rejected command is a fault at transaction level (R125, R128). -/
theorem multiply_of_rejected {w n : Nat} {x y : BitVec w} {c : Cause} {f : FaultInfo} (cfg : DelayConfig) (r : Radix)
    (h : checkCommand n x y = some (c, f)) : multiply cfg r x y n = .error c := by rw [multiply, h]

/-- A command that INIT accepts runs to the same Result at both levels. -/
theorem runCommand_shows_multiply_of_acceptable {c : Command} (h : c.acceptable) (s : State) :
    (runCommand c s).Shows (multiply delayConfig c.radix c.multiplicand c.multiplier c.width.toNat) := by
  have known : (carrySelectDelay delayConfig c.width.toNat).isSome = true :=
    Option.isSome_iff_exists.2 (carrySelectDelay_of_supported h.1)
  obtain ⟨d, hd, -⟩ := load_iterations_of_supported (w := 64) (x := c.multiplicand) (y := c.multiplier) c.radix
    (by norm_num) h.1 known
  obtain ⟨d₀, load, run⟩ := Option.bind_eq_some_iff.1 hd
  have begun : initStep c.radix (s.drive c).accept = ((s.drive c).accept.withDatapath d₀).begin c.radix c.width.toNat :=
    initStep_of_load h load
  rw [runCommand_of_acceptable c s h, begun, multiply, (checkCommand_none_iff ..).2 h, hd]
  exact finalStep_shows_of_iterations (Nat.zero_add _) run rfl

/-- A whole command shows the host what the transaction-level function answers (R85). -/
theorem runCommand_shows_multiply (c : Command) (s : State) :
    (runCommand c s).Shows (multiply delayConfig c.radix c.multiplicand c.multiplier c.width.toNat) := by
  obtain ⟨cause, info, e, -, run⟩ | ⟨acceptable, -⟩ := runCommand_cases c s
  · rw [multiply_of_rejected _ _ e, run]
    exact ⟨rfl, rfl, rfl⟩
  · exact runCommand_shows_multiply_of_acceptable acceptable s

end Sys2Proof.Machine
end

section
/-! SUPPORT. The statements about the whole commands against the transaction level (R85), and the frames of the operations
that hand a value back or write one register (R42). -/

namespace Sys2Proof

open Machine

/-! ### Q.LOAD inside and outside SEXT's contract -/

theorem exec_qLoad_of_contract {n : Nat} (h : 1 ≤ n ∧ n ≤ 64) (x : Word) (s : State) :
    exec (.qLoad x n) s = .next (s.writeQ (loadMultiplier n x)) := if_pos ((sextWidthOk_iff n).2 h)

theorem exec_qLoad_outside_contract {n : Nat} (h : n = 0 ∨ 64 < n) (x : Word) (s : State) :
    exec (.qLoad x n) s = .next (raise .sextWidth (.width n) s) :=
  if_neg fun ok => by have := (sextWidthOk_iff n).1 ok; omega

/-! ### Whole commands -/

/-- Settles O26: both commands are `runCommand`, which simulates `multiply`. -/
theorem commandsAgreeWithTransaction : Obligations.CommandsAgreeWithTransaction := fun s a b w hs =>
  ⟨⟨_, issueCommand_of_not_busy _ s hs, runCommand_shows_multiply ⟨.r4, w, a, b⟩ s⟩,
    ⟨_, issueCommand_of_not_busy _ s hs, runCommand_shows_multiply ⟨.r8, w, a, b⟩ s⟩⟩

/-! ### Frames -/

/-- Settles O56: an operation of this footprint returns a value or raises a fault. -/
theorem frameOfValueOperations : Obligations.FrameOfValueOperations := by
  intro i s t footprint run
  have effect := exec_effect run
  rw [footprint] at effect
  cases effect with
  | returns v => exact .inl rfl
  | raisesInValue c info fails => exact .inr ⟨fails, rfl⟩

/-- Settles O57: the PQ operations by their footprint, Q.LOAD by SEXT's contract. -/
theorem frameOfRegisterWrites : Obligations.FrameOfRegisterWrites := by
  intro i s t run
  refine ⟨fun footprint => ?_, ?_, ?_⟩
  · have effect := exec_effect run
    rw [footprint] at effect
    cases effect with
    | writesPq v => rfl
  · rintro amount rfl
    cases run; rfl
  · rintro x n rfl
    constructor <;> intro h
    · rw [exec_qLoad_of_contract h] at run
      cases run; rfl
    · rw [exec_qLoad_outside_contract h] at run
      cases run; rfl

end Sys2Proof
end

section
/-! SUPPORT. The decoder on whole operations (R49, R57, R59): the code selects the operand readers, and these read the encoder's
bytes back. -/

namespace Sys2Proof

theorem decode_cons (op : Byte) (rest : List Byte) : decode (op :: rest) = decodeOperands op rest := rfl

theorem byte_eq_of_toNat_eq {b : Byte} {k : Nat} (h : b.toNat = k) : b = BitVec.ofNat 8 k := by
  rw [← h, BitVec.ofNat_toNat, BitVec.setWidth_eq]

theorem fitsWord_iff (v : Int) : fitsWord v = true ↔ -(2 ^ 63) ≤ v ∧ v < 2 ^ 63 := by
  rw [fitsWord, Bool.and_eq_true, decide_eq_true_eq, decide_eq_true_eq]

/-- Every word is the pattern of an operand that PQ.SETHI takes (R12, R77). -/
theorem fitsWord_toInt (x : Word) : fitsWord x.toInt = true := (fitsWord_iff _).2 ⟨x.le_toInt, x.toInt_lt⟩

theorem toInt_ofInt_of_fitsWord {v : Int} (h : fitsWord v = true) : (BitVec.ofInt 64 v).toInt = v := by
  obtain ⟨low, high⟩ := (fitsWord_iff v).1 h
  exact BitVec.toInt_ofInt_eq_self (by norm_num) low high

/-- A code of 0x1B to 0x1F is none that the decoder knows (R59, U12). -/
theorem decodeOperands_of_unassigned {op : Byte} (low : 0x1b ≤ op.toNat) (high : op.toNat ≤ 0x1f) (rest : List Byte) :
    decodeOperands op rest = .error (.unassignedCode op) := by
  obtain code | code | code | code | code :
    op.toNat = 0x1b ∨ op.toNat = 0x1c ∨ op.toNat = 0x1d ∨ op.toNat = 0x1e ∨ op.toNat = 0x1f := by omega
  all_goals obtain rfl := byte_eq_of_toNat_eq code; rfl

/-- Settles O1: the first byte selects the readers, and each reader gives back the operand whose bytes it reads. -/
theorem decodeInvertsEncode : Obligations.DecodeInvertsEncode := by
  intro i rest wf
  cases i
  case mul4 a b w | mul8 a b w => simp [encode, decode_cons, decodeOperands, readByte, readWord_wordBytes]
  case sext x n | qLoad x n => simp [encode, decode_cons, decodeOperands, readWord_wordBytes, readNat_ofNat wf]
  case rec4 w | rec8 w => simp [encode, decode_cons, decodeOperands, readWindow_setWidth]
  case pqSetHi v => simp [encode, decode_cons, decodeOperands, readWord_wordBytes, toInt_ofInt_of_fitsWord wf]
  case pqAcc c => simp [encode, decode_cons, decodeOperands, readCoefficient_coefficientByte wf]
  case pqSar n | qSar n | dlyCpl n | dlyMux n | dlyCsel n => simp [encode, decode_cons, decodeOperands, readNat_ofNat wf]
  case dlyPre r n => simp [encode, decode_cons, decodeOperands, readRadix_radixByte, readNat_ofNat wf]
  case dlyIter r n add =>
    simp [encode, decode_cons, decodeOperands, readRadix_radixByte, readNat_ofNat wf, readBool_boolByte]
  case dlyTotal r n adds =>
    obtain ⟨fits, length⟩ : fitsByte n = true ∧ adds.length = r.iterations n := by simpa [Instr.wellFormed] using wf
    simp [encode, decode_cons, decodeOperands, readRadix_radixByte, readNat_ofNat fits, ← length, readBools_map]
  all_goals rfl

/-- Settles O2: where every reader went on, the bytes that stood there are the encoder's, and the operand fits its field. -/
theorem encodeInvertsDecode : Obligations.EncodeInvertsDecode := by
  intro bs rest i decoded
  obtain ⟨op, operands, rfl, h⟩ := readByte_ok decoded
  unfold decodeOperands at h
  split at h
  all_goals rename_i code
  -- no operation has this code
  case h_52 => split at h <;> cases h
  -- the other cases stand in the order of the codes
  all_goals obtain rfl := byte_eq_of_toNat_eq code
  -- MUL4, MUL8
  case h_1 | h_2 =>
    obtain ⟨w, _, rfl, h₁⟩ := readByte_ok h
    obtain ⟨a, _, rfl, h₂⟩ := readWord_ok h₁
    obtain ⟨b, _, rfl, h₃⟩ := readWord_ok h₂
    cases h₃
    exact ⟨rfl, by simp [encode]⟩
  -- SEXT, Q.LOAD
  case h_3 | h_13 =>
    obtain ⟨x, _, rfl, h₁⟩ := readWord_ok h
    obtain ⟨n, _, fits, rfl, h₂⟩ := readNat_ok h₁
    cases h₂
    exact ⟨fits, by simp [encode]⟩
  -- REC4, REC8
  case h_4 | h_5 =>
    obtain ⟨w, _, rfl, h₁⟩ := readWindow_ok (by norm_num) h
    cases h₁
    exact ⟨rfl, rfl⟩
  -- PQ.SETHI
  case h_9 =>
    obtain ⟨x, _, rfl, h₁⟩ := readWord_ok h
    cases h₁
    exact ⟨fitsWord_toInt x, by rw [encode, BitVec.ofInt_toInt]; rfl⟩
  -- PQ.ACC
  case h_10 =>
    obtain ⟨c, _, coefficient, rfl, h₁⟩ := readCoefficient_ok h
    cases h₁
    exact ⟨coefficient, rfl⟩
  -- PQ.SAR, Q.SAR, DLY.CPL, DLY.MUX, DLY.CSEL
  case h_11 | h_14 | h_15 | h_16 | h_17 =>
    obtain ⟨n, _, fits, rfl, h₁⟩ := readNat_ok h
    cases h₁
    exact ⟨fits, rfl⟩
  -- DLY.PRE
  case h_19 =>
    obtain ⟨r, _, rfl, h₁⟩ := readRadix_ok h
    obtain ⟨n, _, fits, rfl, h₂⟩ := readNat_ok h₁
    cases h₂
    exact ⟨fits, rfl⟩
  -- DLY.ITER
  case h_20 =>
    obtain ⟨r, _, rfl, h₁⟩ := readRadix_ok h
    obtain ⟨n, _, fits, rfl, h₂⟩ := readNat_ok h₁
    obtain ⟨add, _, rfl, h₃⟩ := readBool_ok h₂
    cases h₃
    exact ⟨fits, rfl⟩
  -- DLY.TOTAL
  case h_21 =>
    obtain ⟨r, _, rfl, h₁⟩ := readRadix_ok h
    obtain ⟨n, _, fits, rfl, h₂⟩ := readNat_ok h₁
    obtain ⟨adds, _, length, rfl, h₃⟩ := readBools_ok h₂
    cases h₃
    exact ⟨by simp [Instr.wellFormed, fits, length], rfl⟩
  -- the operations without operands
  all_goals
    cases h
    exact ⟨rfl, rfl⟩

end Sys2Proof
end

section
/-! SUPPORT. Words that fit `n` bits (R62), the product in PQ after a command (R54, R96), and Q.LOAD bit by bit (R52, R81). -/

namespace Sys2Proof

open Machine

variable {w n : Nat}

/-- The bits of a sign extension: those of the low part, then copies of bit `n-1` (R62). -/
theorem getLsbD_sext (hn : 1 ≤ n) (x : BitVec w) {i : Nat} (hi : i < w) :
    (sext n x).getLsbD i = x.getLsbD (min i (n - 1)) := by
  rw [sext, BitVec.getLsbD_signExtend, decide_eq_true hi, Bool.true_and]
  split
  case isTrue low => rw [BitVec.getLsbD_setWidth, decide_eq_true low, Bool.true_and, min_eq_left (by omega)]
  case isFalse =>
    rw [BitVec.msb_eq_getLsbD_last, BitVec.getLsbD_setWidth, min_eq_right (by omega), decide_eq_true (by omega), Bool.true_and]

/-- A value in the range of `n` bits is its own sign extension from bit `n-1` (R62). -/
theorem sext_eq_self_of_range {x : BitVec w} (hn : 1 ≤ n) (h : n ≤ w) (low : -(2 ^ (n - 1)) ≤ x.toInt)
    (high : x.toInt < 2 ^ (n - 1)) : sext n x = x := by
  apply BitVec.eq_of_toInt_eq
  have narrower : 2 ^ n ∣ 2 ^ w := pow_dvd_pow 2 h
  calc (sext n x).toInt = (x.toNat : Int).bmod (2 ^ n) := sext_toInt n h x
    _ = signedLow n x.toInt := by rw [signedLow, BitVec.toInt_eq_toNat_bmod, Int.bmod_bmod_of_dvd narrower]
    _ = x.toInt := signedLow_of_range hn le_rfl low high

/-- The product of two `n`-bit values needs no more than `2n` bits (R54, R96). -/
theorem product_range {a b : Int} (hn : 1 ≤ n) (ha : |a| ≤ 2 ^ (n - 1)) (hb : |b| ≤ 2 ^ (n - 1)) :
    -(2 ^ (2 * n - 1)) ≤ a * b ∧ a * b < 2 ^ (2 * n - 1) := by
  have small : |a * b| < 2 ^ (2 * n - 1) :=
    calc |a * b| = |a| * |b| := abs_mul a b
      _ ≤ 2 ^ (n - 1) * 2 ^ (n - 1) := by gcongr
      _ = 2 ^ (2 * n - 2) := by rw [← pow_add]; congr 1; omega
      _ < 2 ^ (2 * n - 1) := pow_lt_pow_right₀ (by norm_num) (by omega)
  obtain ⟨low, high⟩ := abs_lt.1 small
  exact ⟨low.le, high⟩

/-- PQ after a command that INIT accepts (R92, R103). -/
theorem runCommand_pq_toInt {c : Command} (h : c.acceptable) (s : State) :
    (runCommand c s).pq.toInt = (sext c.width.toNat c.multiplicand).toInt * (sext c.width.toNat c.multiplier).toInt := by
  obtain ⟨u, ⟨coherent, inv, hp, rfl, -⟩, run⟩ := runCommand_finishes h s
  rw [run]
  exact finalStep_pq_toInt coherent inv hp

theorem runCommand_pq_eq_sext {c : Command} (h : c.acceptable) (s : State) :
    (runCommand c s).pq = sext (2 * c.width.toNat) (runCommand c s).pq := by
  obtain ⟨four, twelve⟩ := bounds_of_supported h.1
  obtain ⟨low, high⟩ := product_range (n := c.width.toNat) (by omega)
    (abs_sext_toInt_le (by omega) (by omega) c.multiplicand) (abs_sext_toInt_le (by omega) (by omega) c.multiplier)
  rw [← runCommand_pq_toInt h s] at low high
  exact (sext_eq_self_of_range (by omega) (by omega) low high).symm

/-- Q.LOAD is a left shift by one bit of the sign extension (R81). -/
theorem loadMultiplier_eq_shiftLeft (n : Nat) (x : BitVec w) : loadMultiplier n x = sext n x <<< 1 := by
  have two : BitVec.ofInt w 2 = BitVec.twoPow w 1 :=
    BitVec.eq_of_toNat_eq (by rw [BitVec.toNat_twoPow, BitVec.ofInt_ofNat, BitVec.toNat_ofNat, pow_one])
  rw [loadMultiplier, BitVec.ofInt_mul, BitVec.ofInt_toInt, two, BitVec.mul_comm, BitVec.shiftLeft_eq_mul_twoPow]

theorem getLsbD_loadMultiplier_zero (n : Nat) (x : BitVec w) : (loadMultiplier n x).getLsbD 0 = false := by
  simp [loadMultiplier_eq_shiftLeft]

theorem getLsbD_loadMultiplier_succ (n : Nat) (x : BitVec w) {i : Nat} (hi : i + 1 < w) :
    (loadMultiplier n x).getLsbD (i + 1) = (sext n x).getLsbD i := by
  rw [loadMultiplier_eq_shiftLeft, BitVec.getLsbD_shiftLeft, decide_eq_true hi, decide_eq_false (by omega),
    Nat.add_sub_cancel]
  rfl

/-- The shift loses nothing where the register is wider than the multiplier (R81). -/
theorem loadMultiplier_toInt_of_lt (hn : 1 ≤ n) (h : n < w) (x : BitVec w) :
    (loadMultiplier n x).toInt = 2 * (sext n x).toInt := by
  obtain ⟨low, high⟩ := sext_toInt_bounds n hn h.le x
  have room : (2 : Int) * 2 ^ (n - 1) ≤ 2 ^ (w - 1) := by
    rw [← pow_succ']; exact pow_le_pow_right₀ (by norm_num) (by omega)
  exact BitVec.toInt_ofInt_eq_self (by omega) (by linarith) (by linarith)

/-- Settles O30: the product of two `n`-bit operands is in the range of `2n` bits, and a value in range is its own sign
extension. -/
theorem productFitsTwiceTheWidth : Obligations.ProductFitsTwiceTheWidth := fun s _ _ _ hs acceptable =>
  ⟨⟨_, issueCommand_of_not_busy _ s hs, runCommand_pq_eq_sext acceptable s⟩,
    ⟨_, issueCommand_of_not_busy _ s hs, runCommand_pq_eq_sext acceptable s⟩⟩

/-- Settles O50: the bits are those of the sign extension, shifted left by one. -/
theorem loadInsertsImplicitZero : Obligations.LoadInsertsImplicitZero := by
  intro s x n hn h
  refine ⟨loadMultiplier n x, exec_qLoad_of_contract ⟨hn, h⟩ x s, getLsbD_loadMultiplier_zero n x, fun i hi => ?_,
    fun narrower => loadMultiplier_toInt_of_lt hn narrower x⟩
  rw [getLsbD_loadMultiplier_succ n x hi, getLsbD_sext hn x (by omega)]

end Sys2Proof
end

section
/-! SUPPORT. The statements about the codes (R53, R57, R59) and about START and the commands (R55, R129, R137). -/

namespace Sys2Proof

open Machine

theorem fetch_start_of_not_busy {s : State} (hs : s.start = true) (rest : s.status ≠ .busy) :
    fetch s = .run (initInstr s.cmd.radix) s.accept := by simp [fetch, hs, rest]

theorem fetch_start_of_busy {s : State} (hs : s.start = true) (busy : s.status = .busy) :
    fetch s = .stuck .startWhileBusy := by simp [fetch, hs, busy]

theorem fetchOp_of_decode_error {s : State} {b : Byte} {rest : List Byte} {e : DecodeError} (bytes : s.ops = b :: rest)
    (h : decode s.ops = .error e) : fetchOp s = .refused (.undecodable e) := by
  have lined : s.ops ≠ [] := by simp [bytes]
  rw [fetchOp, if_neg lined, h]

/-- Settles O3: each word is run through the decoder. -/
theorem specWordsDecode : Obligations.SpecWordsDecode := by
  refine ⟨?_, ?_, ?_, ?_, ?_, ?_, ?_, ?_⟩ <;> rfl

/-- Settles O4: no reader is selected, and the fetch hands the decoder's rejection on. -/
theorem unassignedCodesRefused : Obligations.UnassignedCodesRefused := by
  intro b rest low high
  have rejected : decode (b :: rest) = .error (.unassignedCode b) := decodeOperands_of_unassigned low high rest
  refine ⟨rejected, fun s hs hp bytes => ?_⟩
  rw [step, fetch_at_rest hs hp, fetchOp_of_decode_error bytes (bytes ▸ rejected)]

/-- Settles O9: the fetch accepts the command and selects INIT by RADIX_SEL. -/
theorem startIsAcceptedAtRest : Obligations.StartIsAcceptedAtRest := by
  intro s hs rest
  have accepted : step s = exec (initInstr s.cmd.radix) s.accept := step_of_fetch_run (fetch_start_of_not_busy hs rest)
  constructor <;> intro radix <;> rw [accepted, radix] <;> rfl

/-- Settles O10: the fetch stops at START, and both commands are issued, or not, by the same check. -/
theorem startWhileBusyIsStuck : Obligations.StartWhileBusyIsStuck := by
  intro s busy
  refine ⟨fun hs => ?_, fun _ _ _ => ⟨issueCommand_of_busy _ s busy, issueCommand_of_busy _ s busy⟩⟩
  rw [step, fetch_start_of_busy hs busy]

end Sys2Proof
end

section
/-! SUPPORT. SEXT inside and outside its contract, and the value of a sign extension (R62, R63). -/

namespace Sys2Proof

open Machine

variable {w n : Nat}

theorem exec_sext_of_contract (h : 1 ≤ n ∧ n ≤ 64) (x : Word) (s : State) :
    exec (.sext x n) s = .next (s.returns (sext n x).toInt) := if_pos ((sextWidthOk_iff n).2 h)

theorem exec_sext_outside_contract (h : n = 0 ∨ 64 < n) (x : Word) (s : State) :
    exec (.sext x n) s = .next (raise .sextWidth (.width n) s) :=
  if_neg fun ok => by have := (sextWidthOk_iff n).1 ok; omega

/-- The value of a sign extension is that of the low part, in which bit `n-1` weighs `-2^(n-1)` (R62). -/
theorem sext_toInt_eq_ite (hn : 1 ≤ n) (h : n ≤ w) (x : BitVec w) :
    (sext n x).toInt = if x.getLsbD (n - 1) then ((x.toNat % 2 ^ n : Nat) : Int) - 2 ^ n else (x.toNat % 2 ^ n : Nat) := by
  have sign : (x.setWidth n).msb = x.getLsbD (n - 1) := by
    rw [BitVec.msb_eq_getLsbD_last, BitVec.getLsbD_setWidth, decide_eq_true (by omega), Bool.true_and]
  rw [sext, BitVec.toInt_signExtend_of_le h, BitVec.toInt_eq_msb_cond, sign, BitVec.toNat_setWidth, Nat.cast_pow,
    Nat.cast_ofNat]

theorem sext_sext (hn : 1 ≤ n) (h : n ≤ w) (x : BitVec w) : sext n (sext n x) = sext n x := by
  obtain ⟨low, high⟩ := sext_toInt_bounds n hn h x
  exact sext_eq_self_of_range hn h low (by omega)

/-- Settles O37: the word handed back is the sign extension, whose bits are known. -/
theorem sextReplicatesSignBit : Obligations.SextReplicatesSignBit := fun s x n hn h =>
  ⟨sext n x, exec_sext_of_contract ⟨hn, h⟩ x s, fun _ hi => getLsbD_sext hn x hi⟩

/-- Settles O38: the value by the sign bit, and a value in the range of `n` bits is its own sign extension. -/
theorem sextValueAndIdempotence : Obligations.SextValueAndIdempotence := by
  intro x n hn h
  obtain ⟨low, high⟩ := sext_toInt_bounds n hn h x
  exact ⟨sext_toInt_eq_ite hn h x, low, high, sext_sext hn h x⟩

/-- Settles O39: both operations check the same contract and raise the same fault. -/
theorem sextOutsideContractFaults : Obligations.SextOutsideContractFaults := fun s x _ h =>
  ⟨exec_sext_outside_contract h x s, exec_qLoad_outside_contract h x s⟩

end Sys2Proof
end

section
/-! SUPPORT. The two recoding tables are the closed form of R68, and what the closed form says for every window length (R69) and
for a row of windows (R72). -/

namespace Sys2Proof

open Machine

/-! ### The closed form (R68, R69) -/

theorem boolToInt_not (x : Bool) : (!x).toInt = 1 - x.toInt := by cases x <;> rfl

theorem boolToInt_nonneg (x : Bool) : 0 ≤ x.toInt := by cases x <;> decide

theorem boolToInt_le_one (x : Bool) : x.toInt ≤ 1 := by cases x <;> decide

/-- The weights `1, 2, ..., 2^(m-1)` sum to `2^m - 1`, so inverting the bits subtracts the sum from that. -/
theorem sum_weighted_not (f : Nat → Bool) (m : Nat) :
    ((List.range m).map fun t => 2 ^ t * (!f t).toInt).sum =
      2 ^ m - 1 - ((List.range m).map fun t => 2 ^ t * (f t).toInt).sum := by
  induction m with
  | zero => rfl
  | succ m ih =>
    rw [List.sum_range_succ, List.sum_range_succ, ih, boolToInt_not]
    ring

theorem sum_weighted_nonneg (f : Nat → Bool) (m : Nat) : 0 ≤ ((List.range m).map fun t => 2 ^ t * (f t).toInt).sum := by
  refine List.sum_nonneg fun x hx => ?_
  obtain ⟨t, -, rfl⟩ := List.mem_map.1 hx
  exact mul_nonneg (by positivity) (boolToInt_nonneg _)

theorem sum_weighted_lt (f : Nat → Bool) (m : Nat) : ((List.range m).map fun t => 2 ^ t * (f t).toInt).sum < 2 ^ m := by
  have inverted := sum_weighted_nonneg (fun t => !f t) m
  rw [sum_weighted_not] at inverted
  omega

/-- The weights of the closed form sum to 0, so the inverted window has the opposite coefficient (R69). -/
theorem boothClosedForm_not {k : Nat} (hk : 1 ≤ k) (win : BitVec (k + 1)) :
    boothClosedForm k (~~~win) = -boothClosedForm k win := by
  have bit {i : Nat} (hi : i ≤ k) : (~~~win).getLsbD i = !win.getLsbD i := by
    rw [BitVec.getLsbD_not, decide_eq_true (by omega), Bool.true_and]
  have middle : ((List.range (k - 1)).map fun t => 2 ^ t * ((~~~win).getLsbD (t + 1)).toInt) =
      (List.range (k - 1)).map fun t => 2 ^ t * (!win.getLsbD (t + 1)).toInt :=
    List.map_congr_left fun t ht => by rw [bit (by have := List.mem_range.1 ht; omega)]
  rw [boothClosedForm, boothClosedForm, middle, sum_weighted_not fun t => win.getLsbD (t + 1), bit le_rfl, bit (Nat.zero_le k),
    boolToInt_not, boolToInt_not]
  ring

theorem boothClosedForm_zero (k : Nat) : boothClosedForm k 0 = 0 := by simp [boothClosedForm]

/-- The all-0 and all-1 windows are each other's inverse, and 0 is its own opposite (R69). -/
theorem boothClosedForm_of_boundary {k : Nat} (hk : 1 ≤ k) {win : BitVec (k + 1)}
    (h : win = 0 ∨ win = BitVec.allOnes (k + 1)) : boothClosedForm k win = 0 := by
  obtain rfl | rfl := h
  · exact boothClosedForm_zero k
  · rw [← BitVec.not_zero, boothClosedForm_not hk]
    exact neg_eq_zero.2 (boothClosedForm_zero k)

theorem boothClosedForm_le (k : Nat) (win : BitVec (k + 1)) : boothClosedForm k win ≤ 2 ^ (k - 1) := by
  have middle := sum_weighted_lt (fun t => win.getLsbD (t + 1)) (k - 1)
  have top : 0 ≤ 2 ^ (k - 1) * (win.getLsbD k).toInt := mul_nonneg (by positivity) (boolToInt_nonneg _)
  have bottom := boolToInt_le_one (win.getLsbD 0)
  rw [boothClosedForm]
  linarith

/-- The lower bound is the upper bound of the inverted window (R69). -/
theorem neg_le_boothClosedForm {k : Nat} (hk : 1 ≤ k) (win : BitVec (k + 1)) : -(2 ^ (k - 1)) ≤ boothClosedForm k win := by
  have inverted := boothClosedForm_le k (~~~win)
  rw [boothClosedForm_not hk] at inverted
  linarith

/-! ### The operations of the tables (R66, R67, R70) -/

theorem rec4Table_eq_closedForm : ∀ win : BitVec 3, rec4Table win = boothClosedForm 2 win := by decide

theorem rec8Table_eq_closedForm : ∀ win : BitVec 4, rec8Table win = boothClosedForm 3 win := by decide

theorem exec_rec4 (win : BitVec 3) (s : State) :
    exec (.rec4 win) s = .next { s with ret := some (boothClosedForm 2 win) } := by
  rw [← rec4Table_eq_closedForm]; rfl

theorem exec_rec8 (win : BitVec 4) (s : State) :
    exec (.rec8 win) s = .next { s with ret := some (boothClosedForm 3 win) } := by
  rw [← rec8Table_eq_closedForm]; rfl

/-- The read of an entry is REC4 of its window (R57). -/
theorem exec_rec4EntryReads (win : BitVec 3) (s : State) :
    ∃ i, rec4EntryReads[win.toNat]? = some i ∧ exec i s = exec (.rec4 win) s := by
  obtain ⟨window⟩ := win
  fin_cases window
  all_goals exact ⟨_, rfl, rfl⟩

/-- The read of an entry is REC8 of its window (R57). -/
theorem exec_rec8EntryReads (win : BitVec 4) (s : State) :
    ∃ i, rec8EntryReads[win.toNat]? = some i ∧ exec i s = exec (.rec8 win) s := by
  obtain ⟨window⟩ := win
  fin_cases window
  all_goals exact ⟨_, rfl, rfl⟩

/-- Settles O40: the table is the closed form, and each entry read is REC4 of its window. -/
theorem rec4IsClosedForm : Obligations.Rec4IsClosedForm := by
  intro win s
  obtain ⟨i, entry, read⟩ := exec_rec4EntryReads win s
  exact ⟨exec_rec4 win s, i, entry, read.trans (exec_rec4 win s)⟩

/-- Settles O41: the table is the closed form, and each entry read is REC8 of its window. -/
theorem rec8IsClosedForm : Obligations.Rec8IsClosedForm := by
  intro win s
  obtain ⟨i, entry, read⟩ := exec_rec8EntryReads win s
  exact ⟨exec_rec8 win s, i, entry, read.trans (exec_rec8 win s)⟩

/-- Settles O42: the three properties are those of the closed form. -/
theorem recodersAreAntisymmetric : Obligations.RecodersAreAntisymmetric := fun s =>
  ⟨fun win => ⟨boothClosedForm 2 win, exec_rec4 win s, by rw [exec_rec4, boothClosedForm_not one_le_two],
      neg_le_boothClosedForm one_le_two win, boothClosedForm_le 2 win, boothClosedForm_of_boundary one_le_two⟩,
    fun win => ⟨boothClosedForm 3 win, exec_rec8 win s, by rw [exec_rec8, boothClosedForm_not (by decide)],
      neg_le_boothClosedForm (by decide) win, boothClosedForm_le 3 win, boothClosedForm_of_boundary (by decide)⟩⟩

/-! ### The recoding identity (R72) -/

/-- The first `count` coefficients at their groups' weights. -/
theorem sum_boothDigit (r : Radix) (b : Int) (count : Nat) :
    ((List.range count).map fun t => boothDigit r b t * 2 ^ (r.k * t)).sum = signedLow (r.k * count) b := by
  induction count with
  | zero => exact (signedLow_zero b).symm
  | succ count ih => rw [List.sum_range_succ, ih, signedLow_succ_group]

/-- Settles O43: each group adds its coefficient at its weight, and above bit `n` there is nothing left to add. -/
theorem recodingIdentity : Obligations.RecodingIdentity := by
  intro r b j
  refine ⟨sum_boothDigit r b (j + 1), fun n hn low high covered => ⟨signedLow_of_range hn covered low high, fun t ht => ?_⟩⟩
  exact boothDigit_above_width hn low high (covered.trans (Nat.mul_le_mul_left r.k ht))

end Sys2Proof
end

section
/-! SUPPORT. The double register written half by half (R74 to R79), and the arithmetic shifts: bit by bit (R80, R82, R143), and
exact where the loop invariant holds (R84). -/

namespace Sys2Proof

open Machine

variable {w : Nat}

/-! ### Exact shifts (R84) -/

theorem sar_toInt_mul_pow_of_dvd {s : Nat} {v : BitVec w} (h : 2 ^ s ∣ v.toInt) : (sar s v).toInt * 2 ^ s = v.toInt := by
  rw [sar_toInt, Int.ediv_mul_cancel h]

/-- What ITER shifts out of PQ is 0 (R84). -/
theorem AfterIterations.iter_shift_dvd {r : Radix} {n count : Nat} {a b : Int} {d : Datapath w}
    (inv : AfterIterations r n a b count d) (h : r.k * count ≤ n) : 2 ^ r.k ∣ d.pq.toInt := by
  rw [inv.product, partialProduct_eq_mul_pow a b h]
  exact dvd_mul_left _ _

/-- What FINAL shifts out of PQ is 0 (R84). -/
theorem AfterIterations.final_shift_dvd {r : Radix} {n : Nat} {a b : Int} {d : Datapath w}
    (inv : AfterIterations r n a b (r.iterations n) d) (hn : 1 ≤ n) (low : -(2 ^ (n - 1)) ≤ b) (high : b < 2 ^ (n - 1)) :
    2 ^ r.finalShift n ∣ d.pq.toInt := by
  rw [inv.product, partialProduct_iterations r a hn low high]
  exact dvd_mul_left _ _

/-- Settles O17: PQ is the partial product, which the radix divides before each iteration, and `2^(n mod r)` after the last. -/
theorem shiftsLoseNothing : Obligations.ShiftsLoseNothing := by
  rintro s ⟨-, -, iterating, ending, -⟩ inv
  constructor <;> intro hp
  · obtain ⟨-, -, ⟨-, hm⟩, notAll⟩ := iterating hp
    have before := inv.afterIterations (.inl hp)
    exact sar_toInt_mul_pow_of_dvd (before.iter_shift_dvd (Radix.k_mul_le_of_lt_iterations (hm ▸ notAll)))
  · obtain ⟨-, -, ⟨supported, hm⟩, all⟩ := ending hp
    obtain ⟨width, -⟩ := inv (.inr hp)
    have after := inv.afterIterations (.inr hp)
    rw [all, hm] at after
    obtain ⟨four, twelve⟩ := bounds_of_supported supported
    obtain ⟨low, high⟩ := State.multiplierValue_range (width ▸ supported)
    rw [← width] at low high
    exact sar_toInt_mul_pow_of_dvd (after.final_shift_dvd (by omega) low high)

/-! ### PQ.SETHI and PQ.ACC (R77 to R79) -/

/-- SETHI of `v` is the word `v` above the low half, as naturals (R77). -/
theorem setHigh_eq_ofNat (n : Nat) (v : Int) (pq : BitVec w) :
    setHigh n v pq = BitVec.ofNat w (2 ^ n * (BitVec.ofInt w v).toNat + lowHalf n pq) := by
  have weight : BitVec.ofInt w (2 ^ n) = BitVec.ofNat w (2 ^ n) := by
    rw [← BitVec.ofInt_natCast, Nat.cast_pow, Nat.cast_ofNat]
  rw [setHigh, BitVec.ofInt_add, BitVec.ofInt_mul, weight, BitVec.ofInt_natCast, BitVec.ofNat_add, BitVec.ofNat_mul,
    BitVec.ofNat_toNat, BitVec.setWidth_eq, BitVec.mul_comm]

/-- The bits below `n` are kept, and those from `n` on are all replaced (R77, R144). -/
theorem getLsbD_setHigh (n : Nat) (v : Int) (pq : BitVec w) {i : Nat} (hi : i < w) :
    (setHigh n v pq).getLsbD i = if i < n then pq.getLsbD i else (BitVec.ofInt w v).getLsbD (i - n) := by
  rw [setHigh_eq_ofNat, BitVec.getLsbD_ofNat, decide_eq_true hi, Bool.true_and,
    Nat.testBit_two_pow_mul_add _ (lowHalf_lt n pq), BitVec.testBit_toNat]
  split
  case isTrue low => rw [lowHalf, Nat.testBit_mod_two_pow, decide_eq_true low, Bool.true_and, BitVec.testBit_toNat]
  case isFalse => rfl

/-- The unsigned high half serves as well as the signed one, since they differ by a multiple of `2^w` at weight `2^n` (R78). -/
theorem setHigh_unsignedHigh_add (n : Nat) (d : Int) (pq : BitVec w) :
    setHigh n ((pq.toNat / 2 ^ n : Nat) + d) pq = BitVec.ofInt w (pq.toInt + d * 2 ^ n) := by
  have whole : ((pq.toNat / 2 ^ n : Nat) : Int) * 2 ^ n + lowHalf n pq = pq.toNat := by
    exact_mod_cast Nat.div_add_mod' pq.toNat (2 ^ n)
  rw [setHigh, add_mul, add_right_comm, whole, BitVec.ofInt_add, BitVec.ofInt_natCast, BitVec.ofNat_toNat,
    BitVec.setWidth_eq, BitVec.ofInt_add, BitVec.ofInt_toInt]

/-- Settles O46, bit by bit. -/
theorem setHighClearsThenWrites : Obligations.SetHighClearsThenWrites := fun s v _ =>
  ⟨setHigh s.n v s.pq, rfl, fun _ hi => getLsbD_setHigh s.n v s.pq hi⟩

/-- Settles O47: whichever reading of the high half is taken, it makes up PQ with the low half. -/
theorem readModifyWriteLaw : Obligations.ReadModifyWriteLaw := by
  intro s d
  refine ⟨⟨highHalf s.n s.pq, rfl, ?_⟩, ?_⟩
  · rw [← setHigh_highHalf_add]; rfl
  · rw [← setHigh_unsignedHigh_add]; rfl

/-- Settles O48: PQ.ACC is SETHI of the sum of the high half and the multiple. -/
theorem accumulateAddsMultiple : Obligations.AccumulateAddsMultiple := by
  intro s c
  rw [← accumulate_eq]; rfl

/-- Settles O44, PQ.CLR being one write of 0. -/
theorem clearZeroesDoubleRegister : Obligations.ClearZeroesDoubleRegister := fun _ => rfl

/-! ### PQ.SAR and Q.SAR (R80, R82) -/

/-- Bits move down, and the sign bit fills in from above (R80, R82, R143). -/
theorem getLsbD_sar (amount : Nat) (v : BitVec w) {i : Nat} (hi : i < w) :
    (sar amount v).getLsbD i = if i + amount ≤ w - 1 then v.getLsbD (i + amount) else v.getLsbD (w - 1) := by
  have inside : i + amount < w ↔ i + amount ≤ w - 1 := by omega
  rw [sar, BitVec.getLsbD_sshiftRight, decide_eq_false (by omega), BitVec.msb_eq_getLsbD_last, Nat.add_comm amount i]
  simp only [inside, Bool.not_false, Bool.true_and]

/-- Settles O49: both operations are the one arithmetic shift. -/
theorem shiftsAreArithmetic : Obligations.ShiftsAreArithmetic := fun s amount =>
  ⟨⟨sar amount s.pq, rfl, sar_toInt amount s.pq, fun _ hi => getLsbD_sar amount s.pq hi⟩,
    ⟨sar amount s.q, rfl, sar_toInt amount s.q, fun _ hi => getLsbD_sar amount s.q hi⟩⟩

end Sys2Proof
end

section
/-! SUPPORT. The sequencer step by step: every step keeps the loop invariant (R92, R103), and a command started over the ports
runs through INIT, M iterations and FINAL to what the whole command leaves (R22, R85, R150). -/

namespace Sys2Proof.Machine

variable {s t u : State} {f : Footprint} {r : Radix}

/-! ### The loop invariant -/

/-- The positions of the sequencer at which a multiplication is under way: where `State.LoopInvariant` says something. -/
abbrev State.UnderWay (s : State) : Prop := s.phase = .iter ∨ s.phase = .final

theorem loopInvariant_of_not_underWay (h : ¬ s.UnderWay) : s.LoopInvariant := fun underWay => absurd underWay h

theorem raise_not_underWay (c : Cause) (info : FaultInfo) (s : State) : ¬ (raise c info s).UnderWay := by simp

theorem finalStep_not_underWay (r : Radix) (s : State) : ¬ (finalStep r s).UnderWay := by simp

theorem runCommand_not_underWay (c : Command) (s : State) : ¬ (runCommand c s).UnderWay := by
  obtain ⟨cause, info, -, -, run⟩ | ⟨-, u, -, run⟩ := runCommand_cases c s <;> rw [run]
  · exact raise_not_underWay cause info _
  · exact finalStep_not_underWay _ u

/-- INIT begins the loop invariant, or takes a fault (R92, R103, R125). -/
theorem initStep_keeps_loopInvariant (s : State) : (initStep s.cmd.radix s).LoopInvariant := by
  obtain ⟨c, info, -, e⟩ | ⟨-, acceptable, -⟩ := initStep_cases s.cmd.radix s
  · rw [e]
    exact loopInvariant_of_not_underWay (raise_not_underWay c info s)
  · exact initStep_loopInvariant acceptable

/-- An operation that the host has lined up for a block at rest begins no iterations: a whole command runs to its end, and
INIT, ITER and FINAL are stuck there (R22, R42). -/
theorem Effect.not_underWay_of_rest (effect : Effect s f t) (rest : s.phase = .idle ∨ s.phase = .done ∨ s.phase = .fault) :
    ¬ t.UnderWay := by
  cases effect with
  | command c => exact runCommand_not_underWay c s
  | init position => simp [position] at rest
  | iter r position => simp [position] at rest
  | final r => exact finalStep_not_underWay r s
  | writesPq | writesQ | returns => rcases rest with hp | hp | hp <;> simp [hp]
  | raisesInLoad c info | raisesInValue c info => exact raise_not_underWay c info s

/-! ### Several steps -/

/-- The run after its first step. -/
theorem run_succ (h : step s = .next t) (k : Nat) : core.run (k + 1) s = core.run k t := by
  have first : core.step s = .next t := h
  simp only [Host.Core.run, first]

/-- The run goes on from where its first `j` steps end. -/
theorem run_add {j : Nat} (k : Nat) (h : core.run j s = .next t) : core.run (j + k) s = core.run k t := by
  induction j generalizing s with
  | zero => cases h; rw [Nat.zero_add]
  | succ j ih =>
    simp only [Host.Core.run] at h
    split at h
    · rename_i s' stepped
      rw [Nat.add_right_comm, run_succ stepped, ih h]
    · cases h
    · cases h

/-! ### From START to DONE -/

theorem seqInit_of_init (hp : s.phase = .init) (hr : s.cmd.radix = r) : seqInit r s = .next (initStep r s) :=
  if_pos ⟨hp, hr⟩

/-- The step that sees START accepts the command and runs its INIT. [log 14] -/
theorem step_at_start (hs : s.start = true) (rest : s.status ≠ .busy) : step s = .next (initStep s.cmd.radix s.accept) := by
  rw [step_of_fetch_run (fetch_start_of_not_busy hs rest), exec_initInstr]
  exact seqInit_of_init rfl rfl

/-- STATUS is BUSY while the iterations and FINAL are ahead (R27). -/
theorem State.Coherent.busy (h : u.Coherent) (hp : u.UnderWay) : u.status = .busy := by
  obtain ⟨-, -, iterating, ending, -⟩ := h
  rcases hp with hp | hp
  · obtain ⟨busy, -⟩ := iterating hp
    exact busy
  · obtain ⟨busy, -⟩ := ending hp
    exact busy

/-- The state while the sequencer has the command's radix and START is not asserted, so that it runs on undisturbed. -/
def State.Undisturbed (r : Radix) (s : State) : Prop := s.radix = r ∧ s.start = false

theorem iterStep_undisturbed (h : s.Undisturbed r) : (iterStep r s).Undisturbed r := by
  obtain ⟨_, _, -, e⟩ | ⟨_, -, e⟩ := iterStep_cases r s <;> rw [e] <;> exact h

theorem step_undisturbed_iter (coherent : s.Coherent) (h : s.Undisturbed r) (hp : s.phase = .iter) :
    step s = .next (iterStep r s) := by
  obtain ⟨rfl, hs⟩ := h
  obtain ⟨-, -, iterating, -⟩ := coherent
  obtain ⟨-, -, -, notAll⟩ := iterating hp
  rw [step_at_iter hs hp, exec_iterInstr, seqIter_of_iter hp notAll]

theorem step_undisturbed_final (h : s.Undisturbed r) (hp : s.phase = .final) : step s = .next (finalStep r s) := by
  obtain ⟨rfl, hs⟩ := h
  rw [step_at_final hs hp, exec_finalInstr, seqFinal_of_final hp]

/-- Where ITER leaves the position (R88, R100). -/
theorem iterStep_position (r : Radix) (coherent : s.Coherent) (hp : s.phase = .iter) :
    (iterStep r s).phase = (if s.i + 1 = s.m then .final else .iter) ∧ (iterStep r s).i = s.i + 1 ∧
      (iterStep r s).m = s.m := by
  obtain ⟨-, -, iterating, -⟩ := coherent
  obtain ⟨-, -, ⟨supported, -⟩, -⟩ := iterating hp
  obtain ⟨d, -, e⟩ := iterStep_of_iterate r supported
  rw [e]
  exact ⟨by simp [hp], rfl, rfl⟩

/-- Steps run the iterations that are left, and STATUS stays BUSY (R22, R27, R150). -/
theorem run_iterations {count : Nat} (coherent : s.Coherent) (h : s.Undisturbed r) (hp : s.phase = .iter)
    (left : s.i + count ≤ s.m) :
    core.run count s = .next (iterSteps r count s) ∧ (iterSteps r count s).status = .busy := by
  induction count generalizing s with
  | zero => exact ⟨rfl, coherent.busy (.inl hp)⟩
  | succ count ih =>
    have coherent' := iterStep_coherent r coherent hp
    obtain ⟨phase, hi, hm⟩ := iterStep_position r coherent hp
    rw [run_succ (step_undisturbed_iter coherent h hp), iterSteps]
    by_cases last : s.i + 1 = s.m
    · obtain rfl : count = 0 := by omega
      exact ⟨rfl, coherent'.busy (.inr (phase.trans (if_pos last)))⟩
    · exact ih coherent' (iterStep_undisturbed h) (phase.trans (if_neg last)) (by omega)

/-- FINAL follows the iterations that are left (R22, R91, R102). -/
theorem run_to_done {count : Nat} (coherent : s.Coherent) (h : s.Undisturbed r) (hp : s.phase = .iter)
    (left : s.i + count = s.m) : core.run (count + 1) s = .next (finalStep r (iterSteps r count s)) := by
  obtain ⟨run, -⟩ := run_iterations coherent h hp left.le
  obtain ⟨-, phase, undisturbed⟩ :=
    iterSteps_reaches_final (P := State.Undisturbed r) (fun _ _ _ => iterStep_undisturbed) coherent hp left h
  rw [run_add 1 run, run_succ (step_undisturbed_final undisturbed phase)]
  rfl

end Sys2Proof.Machine

namespace Sys2Proof

open Machine

/-- Settles O13: INIT begins the invariant, ITER of the radix in RADIX keeps it, and after every other step no multiplication
is under way. -/
theorem stepKeepsLoopInvariant : Obligations.StepKeepsLoopInvariant := by
  intro s t coherent inv stepped
  obtain ⟨-, rfl⟩ | ⟨i, s', selected, run⟩ := step_next_cases stepped
  · exact inv
  obtain ⟨-, -, rfl, rfl⟩ | ⟨-, -, rfl, rfl⟩ | ⟨-, hp, rfl, rfl⟩ | ⟨-, hp, rfl, rfl⟩ | ⟨-, rest, bytes, -, rfl⟩ :=
    fetch_run_cases selected
  · obtain ⟨-, -, rfl⟩ := seqInit_next ((exec_initInstr ..).symm.trans run)
    exact initStep_keeps_loopInvariant s.accept
  · obtain ⟨-, -, rfl⟩ := seqInit_next ((exec_initInstr ..).symm.trans run)
    exact initStep_keeps_loopInvariant s'
  · obtain ⟨-, -, rfl⟩ := seqIter_next ((exec_iterInstr ..).symm.trans run)
    exact iterStep_loopInvariant coherent inv hp
  · obtain ⟨-, rfl⟩ := seqFinal_next ((exec_finalInstr ..).symm.trans run)
    exact loopInvariant_of_not_underWay (finalStep_not_underWay _ _)
  · exact loopInvariant_of_not_underWay ((exec_effect run).not_underWay_of_rest rest)

/-- Settles O18: after INIT the iterations and FINAL run undisturbed, to the state in which the whole command ends. -/
theorem startedCommandRunsToDone : Obligations.StartedCommandRunsToDone := by
  intro s hs rest acceptable m
  have accepted : step s = .next (initStep s.cmd.radix s.accept) := step_at_start hs rest
  have coherent := initStep_coherent s.cmd.radix s.accept
  have whole : runCommand s.cmd s = finalStep s.cmd.radix (iterSteps s.cmd.radix m (initStep s.cmd.radix s.accept)) :=
    runCommand_of_acceptable s.cmd s acceptable
  obtain ⟨pre, -, e⟩ := initStep_of_acceptable s.cmd.radix s.accept acceptable
  have undisturbed : (initStep s.cmd.radix s.accept).Undisturbed s.cmd.radix := by rw [e]; exact ⟨rfl, rfl⟩
  have hp : (initStep s.cmd.radix s.accept).phase = .iter := by rw [e]; rfl
  have hi : (initStep s.cmd.radix s.accept).i = 0 := by rw [e]; rfl
  have hm : (initStep s.cmd.radix s.accept).m = m := by rw [e]; rfl
  constructor
  · intro k first last
    obtain ⟨j, rfl⟩ : ∃ j, k = j + 1 := ⟨k - 1, by omega⟩
    rw [run_succ accepted]
    exact ⟨_, run_iterations coherent undisturbed hp (by omega)⟩
  · obtain ⟨x, hx, -⟩ := productExactAtEveryRegisterWidth 64 delayConfig s.cmd.radix _ s.cmd.multiplicand s.cmd.multiplier
      (by norm_num) acceptable (Option.isSome_iff_exists.2 (carrySelectDelay_of_supported acceptable.1))
    obtain ⟨done, noCause, result⟩ : (runCommand s.cmd s).Shows (.ok x) := hx ▸ runCommand_shows_multiply s.cmd s
    refine ⟨runCommand s.cmd s, x, ?_, done, noCause, result, hx⟩
    rw [run_succ accepted, run_to_done coherent undisturbed hp (by omega), whole]

end Sys2Proof
end

section
/-! SUPPORT. What a whole command that INIT accepts leaves in every register (R86, R98), and on what its cost depends (R121). -/

namespace Sys2Proof.Machine

/-! ### DELAY at the end (R120) -/

/-- After all iterations DELAY is what DLY.TOTAL gives for the multiplier's additions (R119, R120). -/
theorem delayAfter_iterations_eq_totalDelay (r : Radix) (n : Nat) (b : Int) :
    delayAfter r n b (r.iterations n) = totalDelay delayConfig r n (boothAdds r b (r.iterations n)) := by
  rw [delayAfter, totalDelay]
  rcases preDelay delayConfig r n with _ | pre
  · rfl
  · rcases iterDelays delayConfig r n (boothAdds r b (r.iterations n)) with _ | its
    · rfl
    · simp only [length_boothAdds, Nat.min_eq_right (Nat.sub_le ..)]

/-! ### The registers -/

/-- The registers after a command that INIT accepts, as R86 and R98 leave them, and its Result (R93, R94, R104, R105). -/
structure Command.Completed (c : Command) (t : State) : Prop where
  result : t.result = some
    { product := (sext c.width.toNat c.multiplicand).toInt * (sext c.width.toNat c.multiplier).toInt, iterations := t.m,
      additions := t.adds, delay := t.delay }
  pq : t.pq.toInt = (sext c.width.toNat c.multiplicand).toInt * (sext c.width.toNat c.multiplier).toInt
  m : t.m = c.radix.iterations c.width.toNat
  adds : t.adds = boothAdditions c.radix (sext c.width.toNat c.multiplier).toInt (c.radix.iterations c.width.toNat)
  delay : totalDelay delayConfig c.radix c.width.toNat
    (boothAdds c.radix (sext c.width.toNat c.multiplier).toInt (c.radix.iterations c.width.toNat)) = some t.delay
  phase : t.phase = .done
  cause : t.cause = .none
  n : t.n = c.width.toNat
  radix : t.radix = c.radix
  i : t.i = t.m
  a : t.a = sext c.width.toNat c.multiplicand
  q : t.q.toInt = (2 * (sext c.width.toNat c.multiplier).toInt) >>> (c.radix.k * t.m)

theorem AboutToFinish.completed {c : Command} {ops : List Byte} {u : State} (hu : AboutToFinish c ops u) :
    c.Completed (finalStep u.radix u) := by
  obtain ⟨radix, iterations, additions, delay⟩ := hu.registers
  have result : (finalStep u.radix u).result = some (finalStep u.radix u).record := rfl
  rw [hu.record] at result
  have cause := hu.cause
  obtain ⟨coherent, inv, hp, rfl, -⟩ := hu
  have product := finalStep_pq_toInt coherent inv hp
  obtain ⟨-, -, -, ending, -⟩ := coherent
  obtain ⟨-, -, -, all⟩ := ending hp
  obtain ⟨width, -, multiplicand, multiplier, -⟩ := inv (.inr hp)
  rw [delayAfter_iterations_eq_totalDelay] at delay
  rw [radix, all] at multiplier
  exact ⟨result, product, iterations, additions, delay.symm, rfl, cause, width, radix, all, BitVec.eq_of_toInt_eq multiplicand,
    multiplier⟩

theorem runCommand_completed {c : Command} (h : c.acceptable) (s : State) : c.Completed (runCommand c s) := by
  obtain ⟨u, hu, run⟩ := runCommand_finishes h s
  rw [run]
  exact hu.completed

/-- M, ADDS and DELAY are functions of the radix, the width and the multiplier: of the operands, the multiplicand is not among
them (R94, R105, R121). -/
theorem Command.Completed.cost_eq {r : Radix} {w : BitVec 8} {a a' b : Word} {t t' : State}
    (h : Command.Completed ⟨r, w, a, b⟩ t) (h' : Command.Completed ⟨r, w, a', b⟩ t') :
    t.m = t'.m ∧ t.adds = t'.adds ∧ t.delay = t'.delay :=
  ⟨h.m.trans h'.m.symm, h.adds.trans h'.adds.symm, Option.some.inj (h.delay.symm.trans h'.delay)⟩

end Sys2Proof.Machine

namespace Sys2Proof

open Machine

/-- Settles O20: MUL4 is the whole command of radix 4, whose `m` is `(n+2)/2`. -/
theorem mul4IsExact : Obligations.Mul4IsExact := by
  intro s a b w hs acceptable
  have ops := runCommand_ops ⟨.r4, w, a, b⟩ s
  obtain ⟨result, pq, m, adds, delay, phase, cause, n, radix, i, multiplicand, multiplier⟩ :=
    runCommand_completed (c := ⟨.r4, w, a, b⟩) acceptable s
  rw [m, adds] at result
  exact ⟨_, _, issueCommand_of_not_busy _ s hs, result, delay, pq, m, adds, rfl, phase, cause, n, radix, i, multiplicand,
    multiplier, ops⟩

/-- Settles O31: both commands complete with each of the multiplicands, at the same cost. -/
theorem costIgnoresMultiplicand : Obligations.CostIgnoresMultiplicand := by
  intro s a a' b w hs acceptable acceptable'
  have cost (r : Radix) := (runCommand_completed (c := ⟨r, w, a, b⟩) acceptable s).cost_eq
    (runCommand_completed (c := ⟨r, w, a', b⟩) acceptable' s)
  exact ⟨⟨_, _, issueCommand_of_not_busy _ s hs, issueCommand_of_not_busy _ s hs, cost .r4⟩,
    ⟨_, _, issueCommand_of_not_busy _ s hs, issueCommand_of_not_busy _ s hs, cost .r8⟩⟩

end Sys2Proof
end

section
/-! SUPPORT. The registers of one bit less than R95 asks for: the first multiple already wraps (R95, R146). -/

namespace Sys2Proof

open Machine

/-- The least `n`-bit multiplicand, in a register of `2n + r - 1` bits. -/
def leastMultiplicand (r : Radix) (n : Nat) : BitVec (2 * n + r.k - 1) := BitVec.ofInt _ (-(2 ^ (n - 1)))

/-- A multiplier whose first group has the least coefficient, `-2^(r-1)`, and whose second group has the coefficient 1. -/
def wrappingMultiplier (r : Radix) (n : Nat) : BitVec (2 * n + r.k - 1) := BitVec.ofInt _ (2 ^ (r.k - 1))

theorem leastMultiplicand_toInt (r : Radix) {n : Nat} (hn : 1 ≤ n) : (leastMultiplicand r n).toInt = -(2 ^ (n - 1)) := by
  have := r.one_le_k
  have room : (2 : Int) ^ (n - 1) < 2 ^ (2 * n + r.k - 1 - 1) := pow_lt_pow_right₀ (by norm_num) (by omega)
  exact toInt_ofInt_of_abs_lt (by omega) (by rwa [abs_neg, abs_of_pos (by positivity)])

theorem wrappingMultiplier_toInt (r : Radix) {n : Nat} (hn : 1 ≤ n) : (wrappingMultiplier r n).toInt = 2 ^ (r.k - 1) := by
  have := r.one_le_k
  have room : (2 : Int) ^ (r.k - 1) < 2 ^ (2 * n + r.k - 1 - 1) := pow_lt_pow_right₀ (by norm_num) (by omega)
  exact toInt_ofInt_of_abs_lt (by omega) (by rwa [abs_of_pos (by positivity)])

theorem sext_leastMultiplicand (r : Radix) {n : Nat} (hn : 1 ≤ n) : sext n (leastMultiplicand r n) = leastMultiplicand r n := by
  have := r.one_le_k
  have positive : (0 : Int) < 2 ^ (n - 1) := by positivity
  have value := leastMultiplicand_toInt r hn
  exact sext_eq_self_of_range hn (by omega) (by omega) (by omega)

theorem sext_wrappingMultiplier (r : Radix) {n : Nat} (hn : r.k < n) :
    sext n (wrappingMultiplier r n) = wrappingMultiplier r n := by
  have hk := r.one_le_k
  have positive : (0 : Int) < 2 ^ (r.k - 1) := by positivity
  have below : (2 : Int) ^ (r.k - 1) < 2 ^ (n - 1) := pow_lt_pow_right₀ (by norm_num) (by omega)
  have value := wrappingMultiplier_toInt r (hk.trans hn.le)
  exact sext_eq_self_of_range (by omega) (by omega) (by omega) (by omega)

theorem operandFits_of_sext_eq {w n : Nat} {x : BitVec w} (h : sext n x = x) : operandFits n x = true := by
  simp [operandFits, h]

/-- The exact product would be `-2^(n+r-2)`. The first multiple is `2^(2n+r-2)`, the bound of R95 met with equality, which
`2n + r - 1` bits read as its negative: PQ is `2^(2n+r-1)` too small, and the shifts, by `n` bits in all, leave an error of
`2^(n+r-1)`. -/
theorem multiply_wraps (r : Radix) {n : Nat} (hn : n ∈ supportedWidths) :
    ∃ x, multiply delayConfig r (leastMultiplicand r n) (wrappingMultiplier r n) n = .ok x ∧
      x.product = -(2 ^ (n + r.k - 2)) - 2 ^ (n + r.k - 1) := by
  obtain rfl | rfl | rfl | rfl | rfl := (mem_supportedWidths n).1 hn
  all_goals
    cases r
    all_goals exact ⟨_, rfl, by decide⟩

/-- Settles O28: the least multiplicand times `2^(r-1)` is well-formed, and its first multiple wraps. -/
theorem narrowerRegisterFails : Obligations.NarrowerRegisterFails := by
  intro r n hn
  obtain ⟨x, run, product⟩ := multiply_wraps r hn
  obtain ⟨four, -⟩ := bounds_of_supported hn
  have hk := r.one_le_k
  have k_lt : r.k < n := by have := r.k_le_three; omega
  have multiplicand := sext_leastMultiplicand r (n := n) (by omega)
  have multiplier := sext_wrappingMultiplier r k_lt
  refine ⟨_, _, x, ⟨hn, operandFits_of_sext_eq multiplicand, operandFits_of_sext_eq multiplier⟩, run, ?_⟩
  have wanted : -(2 : Int) ^ (n - 1) * 2 ^ (r.k - 1) = -(2 ^ (n + r.k - 2)) := by
    rw [neg_mul, ← pow_add]; congr 2; omega
  have error : (0 : Int) < 2 ^ (n + r.k - 1) := by positivity
  rw [multiplicand, multiplier, leastMultiplicand_toInt r (by omega), wrappingMultiplier_toInt r (by omega), wanted, product]
  omega

end Sys2Proof
end

section
/-! SUPPORT. The statements about INIT and ITER one at a time, inside and outside their preconditions (R87 to R91, R99 to
R102). -/

namespace Sys2Proof

open Machine

variable {s : State} {r : Radix} {n : Nat}

/-! ### Outside the preconditions (R22) -/

theorem seqInit_outside (h : s.phase ≠ .init ∨ s.cmd.radix ≠ r) : seqInit r s = .fault .outsidePhase :=
  if_neg (not_and_or.2 h)

theorem seqIter_outside (r : Radix) (h : s.phase ≠ .iter ∨ s.m ≤ s.i) : seqIter r s = .fault .outsidePhase :=
  if_neg (not_and_or.2 (h.imp_right Nat.not_lt.2))

theorem seqFinal_outside (r : Radix) (h : s.phase ≠ .final) : seqFinal r s = .fault .outsidePhase := if_neg h

/-- Settles O36: each of the six operations checks its precondition first. -/
theorem sequencerStepsOutsidePhaseAreStuck : Obligations.SequencerStepsOutsidePhaseAreStuck := fun _ =>
  ⟨fun h => seqInit_outside (h.imp_right fun radix => by simp [radix]),
    fun h => seqInit_outside (h.imp_right fun radix => by simp [radix]),
    fun h => ⟨seqIter_outside .r4 h, seqIter_outside .r8 h⟩, fun h => ⟨seqFinal_outside .r4 h, seqFinal_outside .r8 h⟩⟩

/-! ### INIT -/

/-- The precompute delay of radix 4 is that of the complement, `n` (R111, R116). -/
theorem preDelay_r4 (n : Nat) : preDelay delayConfig .r4 n = some n := congrArg some n.one_mul

/-- The precompute delay of radix 8 is that of the complement and of the addition `A + 2A` (R113, R116). -/
theorem preDelay_r8 {csd : Nat} (h : carrySelectDelay delayConfig n = some csd) :
    preDelay delayConfig .r8 n = some (n + csd) := by
  rw [preDelay, h]
  exact congrArg (fun cpl => some (cpl + csd)) n.one_mul

/-- The state after INIT of an acceptable command, with the precompute delay `pre` (R87, R99). -/
def initialized (s : State) (r : Radix) (pre : Nat) : State :=
  (s.withDatapath
    { a := sext s.cmd.width.toNat s.cmd.multiplicand, q := loadMultiplier s.cmd.width.toNat s.cmd.multiplier, pq := 0,
      adds := 0, delay := pre }).begin r s.cmd.width.toNat

theorem seqInit_of_acceptable {pre : Nat} (hp : s.phase = .init) (hr : s.cmd.radix = r) (h : s.cmd.acceptable)
    (hpre : preDelay delayConfig r s.cmd.width.toNat = some pre) : seqInit r s = .next (initialized s r pre) := by
  obtain ⟨pre', hpre', e⟩ := initStep_of_acceptable r s h
  obtain rfl : pre = pre' := Option.some.inj (hpre.symm.trans hpre')
  rw [seqInit_of_init hp hr, e]
  rfl

theorem initialized_q_toInt (h : s.cmd.acceptable) (r : Radix) (pre : Nat) :
    (initialized s r pre).q.toInt = 2 * s.multiplierValue := by
  obtain ⟨four, twelve⟩ := bounds_of_supported h.1
  exact loadMultiplier_toInt_of_lt (by omega) (by omega) s.cmd.multiplier

/-- Settles O33: the two radices differ in M and the precompute delay. -/
theorem initLoadsEverything : Obligations.InitLoadsEverything := by
  intro s hp acceptable
  constructor <;> intro radix
  · exact ⟨_, seqInit_of_acceptable hp radix acceptable (preDelay_r4 _), rfl, initialized_q_toInt acceptable ..⟩
  · obtain ⟨csd, hcsd⟩ := carrySelectDelay_of_supported acceptable.1
    exact ⟨_, csd, seqInit_of_acceptable hp radix acceptable (preDelay_r8 hcsd), hcsd, rfl, initialized_q_toInt acceptable ..⟩

/-! ### ITER -/

/-- The sub-steps of one iteration on the registers as integers: the shift, then the multiple at weight `2^n` (R88, R89). -/
theorem accumulate_sar (n amount : Nat) (c : Int) {w : Nat} (a pq : BitVec w) :
    accumulate n c a (sar amount pq) = BitVec.ofInt w (pq.toInt / 2 ^ amount + c * a.toInt * 2 ^ n) := by
  rw [accumulate_eq, sar_toInt]

/-- ADDS counts the coefficients that are not 0 (R89). -/
theorem add_toNat_addsMultiple (adds : Nat) (c : Int) :
    adds + (addsMultiple c).toNat = if c = 0 then adds else adds + 1 := by
  by_cases zero : c = 0 <;> simp [addsMultiple, zero]

/-- Settles O34: a coefficient of 0 accumulates nothing, so that the sub-steps are the same for every coefficient. -/
theorem iterationFollowsSubsteps : Obligations.IterationFollowsSubsteps := by
  intro r s hp notAll supported c
  obtain ⟨d, hd, e⟩ := iterStep_of_iterate r supported
  rw [iterate_eq] at hd
  obtain ⟨t, ht, rfl⟩ := Option.map_eq_some_iff.1 hd
  refine ⟨iterStep r s, t, ?_, ht, ?_, ?_⟩
  · rw [exec_iterInstr, seqIter_of_iter hp notAll]
  · have latch : (if decide (s.i + 1 = s.m) then 0 else delayConfig.latchDelay) = if s.i + 1 = s.m then 0 else 3 := by
      simp only [decide_eq_true_eq]; rfl
    have phase : (if s.i + 1 = s.m then .final else s.phase) = if s.i + 1 = s.m then Phase.final else .iter := by rw [hp]
    rw [e, ← accumulate_sar, ← add_toNat_addsMultiple, ← latch, ← phase]
    rfl
  · rw [e]
    exact sar_toInt r.k s.q

end Sys2Proof
end

section
/-! SUPPORT. The statements about MUL8 as a whole command (R98) and about the two commands on the same operands (R107). -/

namespace Sys2Proof

open Machine

/-- Settles O21: MUL8 is the whole command of radix 8, whose `m` is `(n+3)/3`. -/
theorem mul8IsExact : Obligations.Mul8IsExact := by
  intro s a b w hs acceptable
  have completed := runCommand_completed (c := ⟨.r8, w, a, b⟩) acceptable s
  have result := completed.result
  rw [completed.m, completed.adds] at result
  exact ⟨_, _, issueCommand_of_not_busy _ s hs, result, completed.delay, completed.pq, completed.m, completed.adds, rfl,
    completed.phase, completed.cause, completed.n, completed.radix, completed.i, completed.a, completed.q, runCommand_ops _ s⟩

/-! ### The radices against each other -/

/-- Radix 8 saves at least one iteration at every supported width (R24). -/
theorem iterations_r8_lt_r4 {n : Nat} (hn : n ∈ supportedWidths) : Radix.iterations .r8 n < Radix.iterations .r4 n := by
  obtain ⟨four, -⟩ := bounds_of_supported hn
  simp only [Radix.iterations_eq, Radix.k]
  omega

theorem sext_two : ∀ n ∈ supportedWidths, (sext n (2 : Word)).toInt = 2 := by decide

/-- In radix 4, `2 = -2 + 1 * 4`. -/
theorem boothAdditions_r4_two : ∀ n ∈ supportedWidths, boothAdditions .r4 2 (Radix.iterations .r4 n) = 2 := by decide

/-- In radix 8, 2 is a digit. -/
theorem boothAdditions_r8_two : ∀ n ∈ supportedWidths, boothAdditions .r8 2 (Radix.iterations .r8 n) = 1 := by decide

/-- A multiplier of 2 costs MUL8 one addition less, which the addition `A + 2A` of its precompute makes up for; its fewer
iterations then leave its total below MUL4's (R116, R120). -/
theorem totalDelay_two_ne : ∀ n ∈ supportedWidths,
    totalDelay delayConfig .r4 n (boothAdds .r4 2 (Radix.iterations .r4 n)) ≠
      totalDelay delayConfig .r8 n (boothAdds .r8 2 (Radix.iterations .r8 n)) := by decide

/-- The additions and the delay of the two commands differ for a multiplier of 2 (R107). -/
theorem cost_ne_of_multiplier_two {w : BitVec 8} {a : Word} {t t' : State} (hn : w.toNat ∈ supportedWidths)
    (h : Command.Completed ⟨.r4, w, a, 2⟩ t) (h' : Command.Completed ⟨.r8, w, a, 2⟩ t') :
    t.adds ≠ t'.adds ∧ t.delay ≠ t'.delay := by
  have additions := h.adds
  have additions' := h'.adds
  have delay := h.delay
  have delay' := h'.delay
  simp only [sext_two _ hn] at additions additions' delay delay'
  constructor
  · rw [additions, additions', boothAdditions_r4_two _ hn, boothAdditions_r8_two _ hn]
    decide
  · intro same
    exact totalDelay_two_ne _ hn (by rw [delay, delay', same])

/-- Settles O29: both commands complete with the same product; the iterations differ at every supported width, and for a
multiplier of 2 so do the additions and the delay. -/
theorem radicesAgreeOnProduct : Obligations.RadicesAgreeOnProduct := by
  intro s a b w hs acceptable
  have four := runCommand_completed (c := ⟨.r4, w, a, b⟩) acceptable s
  have eight := runCommand_completed (c := ⟨.r8, w, a, b⟩) acceptable s
  have fewer := iterations_r8_lt_r4 acceptable.1
  rw [← four.m, ← eight.m] at fewer
  refine ⟨_, _, _, _, issueCommand_of_not_busy _ s hs, issueCommand_of_not_busy _ s hs, four.result, eight.result, rfl,
    fewer.ne', ?_⟩
  rintro rfl
  exact cost_ne_of_multiplier_two acceptable.1 four eight

end Sys2Proof
end

section
/-! SUPPORT. The delay model (R109 to R121): each delay function over a width the table knows and over one it lacks, and the
operations DLY.* as these functions' values handed back. -/

namespace Sys2Proof

open Machine

variable {r : Radix} {n csd : Nat} {adds : List Bool} {s : State}

/-! ### DLY.* as values handed back -/

@[simp] theorem exec_dlyCpl : exec (.dlyCpl n) s = .next (s.returns (complementDelay delayConfig n)) := rfl

@[simp] theorem exec_dlyCsel : exec (.dlyCsel n) s = .next (returnsDelay n (carrySelectDelay delayConfig n) s) := rfl

@[simp] theorem exec_dlyPre : exec (.dlyPre r n) s = .next (returnsDelay n (preDelay delayConfig r n) s) := rfl

@[simp] theorem exec_dlyIter {add : Bool} :
    exec (.dlyIter r n add) s = .next (returnsDelay n (iterDelay delayConfig r n add) s) := rfl

theorem exec_dlyTotal (length : adds.length = r.iterations n) :
    exec (.dlyTotal r n adds) s = .next (returnsDelay n (totalDelay delayConfig r n adds) s) := if_pos length

@[simp] theorem returnsDelay_some {v : Nat} : returnsDelay n (some v) s = s.returns v := rfl

@[simp] theorem returnsDelay_none : returnsDelay n none s = raise .unsupportedWidth (.width n) s := rfl

@[simp] theorem complementDelay_delayConfig (n : Nat) : complementDelay delayConfig n = n := Nat.one_mul n

/-! ### A width the table knows (R113) -/

theorem carrySelectDelay_of_mem (h : (n, csd) ∈ delayConfig.csd) : carrySelectDelay delayConfig n = some csd := by
  simp only [delayConfig, List.mem_cons, Prod.mk.injEq, List.not_mem_nil, or_false] at h
  obtain ⟨rfl, rfl⟩ | ⟨rfl, rfl⟩ | ⟨rfl, rfl⟩ | ⟨rfl, rfl⟩ | ⟨rfl, rfl⟩ := h <;> rfl

/-- Every carry-select delay exceeds `k`, so that the add path is the slower one where it adds (R118, R121). -/
theorem k_lt_of_mem (h : (n, csd) ∈ delayConfig.csd) (r : Radix) : r.k < csd := by
  have least : ∀ e ∈ delayConfig.csd, 8 ≤ e.2 := by decide
  have := least _ h
  have := r.k_le_three
  omega

/-- DLY.PRE (R116). -/
theorem preDelay_of_mem (h : (n, csd) ∈ delayConfig.csd) (r : Radix) :
    preDelay delayConfig r n = some (if r = .r4 then n else n + csd) := by
  cases r <;> simp [preDelay, carrySelectDelay_of_mem h]

/-- DLY.ITER: the slower of the add path and the lookup path (R115, R117, R118). -/
theorem iterDelay_of_mem (h : (n, csd) ∈ delayConfig.csd) (r : Radix) (add : Bool) :
    iterDelay delayConfig r n add = some (max (if add then csd + 2 else 2) (r.k + 2)) := by
  rw [iterDelay, carrySelectDelay_of_mem h]; rfl

/-- The sum over the iterations: `CSD[n] + 2` for each that adds, `k + 2` for each other (R118). -/
theorem iterDelays_of_mem (h : (n, csd) ∈ delayConfig.csd) (r : Radix) (adds : List Bool) :
    iterDelays delayConfig r n adds =
      some (adds.count true * (csd + 2) + (adds.length - adds.count true) * (r.k + 2)) := by
  have slower : max (addPathDelay delayConfig csd true) (lookupPathDelay delayConfig r) = csd + 2 :=
    max_eq_left (Nat.add_le_add_right (k_lt_of_mem h r).le 2)
  have lookup : max (addPathDelay delayConfig csd false) (lookupPathDelay delayConfig r) = r.k + 2 :=
    max_eq_right (Nat.le_add_left 2 r.k)
  have without : adds.count false = adds.length - adds.count true := by
    have := adds.count_true_add_count_false
    omega
  rw [iterDelays_eq (carrySelectDelay_of_mem h), slower, lookup, without]

/-- DLY.TOTAL in closed form (R120). -/
theorem totalDelay_of_mem (h : (n, csd) ∈ delayConfig.csd) (r : Radix) (adds : List Bool) :
    totalDelay delayConfig r n adds =
      some ((if r = .r4 then n else n + csd) + adds.count true * (csd + 2) +
        (adds.length - adds.count true) * (r.k + 2) + 3 * (adds.length - 1)) := by
  rw [totalDelay, preDelay_of_mem h, iterDelays_of_mem h, add_assoc _ (adds.count true * _)]
  rfl

/-! ### A width the table lacks (R113, R132) -/

theorem preDelay_r8_of_unsupported (h : n ∉ supportedWidths) : preDelay delayConfig .r8 n = none := by
  rw [preDelay, (carrySelectDelay_none_iff n).2 h]; rfl

theorem iterDelays_of_unsupported (h : n ∉ supportedWidths) (nonempty : adds ≠ []) :
    iterDelays delayConfig r n adds = none := by
  cases adds with
  | nil => contradiction
  | cons add rest => rw [iterDelays, iterDelay_of_unsupported h]

/-- With one iteration at least DLY.TOTAL consults the table, whatever the radix. [log 11] -/
theorem totalDelay_of_unsupported (h : n ∉ supportedWidths) (nonempty : adds ≠ []) :
    totalDelay delayConfig r n adds = none := by
  rw [totalDelay, iterDelays_of_unsupported h nonempty]
  cases preDelay delayConfig r n <;> rfl

end Sys2Proof
end

section
/-! SUPPORT. The statements about the delay model (R109 to R121). -/

namespace Sys2Proof

open Machine

/-- Settles O51: these operations consult no table, so each hands its value back at every width. -/
theorem delayPrimitives : Obligations.DelayPrimitives := by
  intro s n
  refine ⟨?_, rfl, rfl, ?_⟩
  · rw [exec_dlyCpl, complementDelay_delayConfig]; rfl
  · rw [exec_dlyPre, preDelay, complementDelay_delayConfig]; rfl

/-- Settles O52, from the values of the delay functions at a width the table knows. -/
theorem delayTableOperations : Obligations.DelayTableOperations := by
  intro s n csd h
  refine ⟨?_, ?_, fun r add => ?_⟩
  · rw [exec_dlyCsel, carrySelectDelay_of_mem h]; rfl
  · rw [exec_dlyPre, preDelay_of_mem h]; rfl
  · rw [exec_dlyIter, iterDelay_of_mem h, returnsDelay_some, State.returns]
    cases add <;> simp

/-- Settles O53: each of these delay functions has no value at a width the table lacks, DLY.TOTAL because at least one
iteration asks for one. -/
theorem unsupportedWidthFaultsDelays : Obligations.UnsupportedWidthFaultsDelays := by
  rintro s n h t rfl
  refine ⟨?_, ?_, fun r add => ?_, fun r adds length => ?_⟩
  · rw [exec_dlyCsel, (carrySelectDelay_none_iff n).2 h]; rfl
  · rw [exec_dlyPre, preDelay_r8_of_unsupported h]; rfl
  · rw [exec_dlyIter, iterDelay_of_unsupported h]; rfl
  · have nonempty : adds ≠ [] := List.ne_nil_of_length_pos (length ▸ r.iterations_pos n)
    rw [exec_dlyTotal length, totalDelay_of_unsupported h nonempty]; rfl

/-- Settles O54: the iterations' delays sum up to a closed form in the number of those that add. -/
theorem totalDelayClosedForm : Obligations.TotalDelayClosedForm := by
  intro s r n csd adds h length
  rw [exec_dlyTotal length, totalDelay_of_mem h, length]
  rfl

/-- Settles O55: an iteration that adds costs `CSD[n] + 2` in place of `k + 2` (R121). -/
theorem moreAdditionsDelayMore : Obligations.MoreAdditionsDelayMore := by
  intro r n csd adds adds' h length length' more
  refine ⟨_, _, totalDelay_of_mem h r adds, totalDelay_of_mem h r adds', ?_, k_lt_of_mem h r⟩
  rw [length, length']
  obtain ⟨further, more⟩ := Nat.exists_eq_add_of_le more
  obtain ⟨rest, all⟩ := Nat.exists_eq_add_of_le (length' ▸ adds'.count_le_length (a := true))
  obtain ⟨excess, slower⟩ := Nat.exists_eq_add_of_le (k_lt_of_mem h r).le
  have others : r.iterations n - adds.count true = further + rest := by omega
  have others' : r.iterations n - adds'.count true = rest := by omega
  rw [others, others', more, Nat.add_sub_cancel_left, slower, Nat.add_sub_cancel_left]
  ring

end Sys2Proof
end

section
/-! SUPPORT. The faults (R122 to R128): an operation that ends in FAULT has done nothing but raise, and which values of an operand
are well-formed (R124). -/

namespace Sys2Proof.Machine

variable {s t : State} {f : Footprint}

/-! ### What INIT rejects -/

theorem checkCommand_of_not_acceptable {w n : Nat} {a b : BitVec w} (h : ¬ Acceptable n a b) :
    ∃ info, checkCommand n a b = some (if n ∈ supportedWidths then .operandRange else .unsupportedWidth, info) := by
  rcases e : checkCommand n a b with _ | ⟨cause, info⟩
  · exact absurd ((checkCommand_none_iff n a b).1 e) h
  · exact ⟨info, by rw [checkCommand_cause e]⟩

/-- A command that INIT rejects, issued while not BUSY, takes the fault on the ports it drives (R125, R127). [log 19] -/
theorem issueCommand_of_rejected {c : Command} {cause : Cause} {info : FaultInfo} (rest : s.status ≠ .busy)
    (rejected : checkCommand c.width.toNat c.multiplicand c.multiplier = some (cause, info)) :
    issueCommand c s = .next (raise cause info (s.drive c).accept) := by
  rw [issueCommand_of_not_busy c s rest, runCommand_of_rejected c s rejected]

/-! ### What an operation that ends in FAULT has done -/

/-- The fault is raised in the state as it was, or as it was with a command's ports driven and START taken. -/
theorem Effect.raises_of_fault (effect : Effect s f t) (faulted : t.status = .fault) (before : s.status ≠ .fault) :
    ∃ cause info, t = raise cause info s ∨ ∃ c, t = raise cause info (s.drive c).accept := by
  cases effect with
  | command c =>
    obtain ⟨cause, info, -, -, run⟩ | ⟨-, u, -, run⟩ := runCommand_cases c s
    · exact ⟨cause, info, .inr ⟨c, run⟩⟩
    · simp [run] at faulted
  | init =>
    obtain ⟨cause, info, -, e⟩ | ⟨d, -, e⟩ := initStep_cases s.cmd.radix s
    · exact ⟨cause, info, .inl e⟩
    · simp [e] at faulted
  | iter r =>
    obtain ⟨cause, info, -, e⟩ | ⟨d, -, e⟩ := iterStep_cases r s
    · exact ⟨cause, info, .inl e⟩
    · simp [e, before] at faulted
  | final => simp at faulted
  | writesPq | writesQ | returns => exact absurd faulted before
  | raisesInLoad cause info | raisesInValue cause info => exact ⟨cause, info, .inl rfl⟩

end Sys2Proof.Machine

namespace Sys2Proof

open Machine

variable {w n : Nat}

/-! ### Which values are well-formed (R124) -/

theorem ushiftRight_eq_zero_iff (n : Nat) (x : BitVec w) : x >>> n = 0 ↔ x.toNat < 2 ^ n := by
  rw [← BitVec.toNat_inj, BitVec.toNat_ushiftRight, Nat.shiftRight_eq_div_pow]
  exact Nat.div_eq_zero_iff_lt (Nat.two_pow_pos n)

theorem eq_sext_self_iff (hn : 1 ≤ n) (h : n ≤ w) (x : BitVec w) :
    x = sext n x ↔ -(2 ^ (n - 1)) ≤ x.toInt ∧ x.toInt < 2 ^ (n - 1) := by
  constructor
  · intro self
    obtain ⟨low, high⟩ := sext_toInt_bounds n hn h x
    rw [← self] at low high
    exact ⟨low, by omega⟩
  · rintro ⟨low, high⟩
    exact (sext_eq_self_of_range hn h low high).symm

/-- Settles O24: a zero-extension has nothing above its low `n` bits, and a sign-extension is its own sign extension. -/
theorem operandFitsMeansRange : Obligations.OperandFitsMeansRange := by
  intro x n hn h
  rw [operandFits, Bool.or_eq_true, beq_iff_eq, beq_iff_eq, ushiftRight_eq_zero_iff, eq_sext_self_iff hn h]

/-! ### Faults -/

/-- Settles O59: an operation that turns STATUS to FAULT has raised a fault, and raising writes no register of the datapath. -/
theorem faultsWriteNoDatapathRegister : Obligations.FaultsWriteNoDatapathRegister := by
  intro i s t run faulted before
  obtain ⟨cause, info, rfl | ⟨c, rfl⟩⟩ := (exec_effect run).raises_of_fault faulted before <;> simp

/-- Settles O19: the step is INIT in the state that has accepted the command, and INIT raises what its checks answer. -/
theorem startedCommandFaultsInOneStep : Obligations.StartedCommandFaultsInOneStep := by
  intro s started rest rejected
  obtain ⟨info, check⟩ := checkCommand_of_not_acceptable rejected
  refine ⟨info, ?_⟩
  rw [step_at_start started rest, initStep_of_rejected s.cmd.radix s.accept check]
  rfl

/-- Settles O22: the width is the first of INIT's checks, so the operands do not matter. -/
theorem unsupportedWidthFaultsCommands : Obligations.UnsupportedWidthFaultsCommands := fun _ a b _ rest unsupported =>
  ⟨issueCommand_of_rejected rest (checkCommand_of_unsupported unsupported a b),
    issueCommand_of_rejected rest (checkCommand_of_unsupported unsupported a b)⟩

/-- Settles O23: at a supported width INIT's checks go on to the operands. -/
theorem operandRangeFaultsCommands : Obligations.OperandRangeFaultsCommands := fun _ a b _ rest supported bad =>
  ⟨_, issueCommand_of_rejected rest (checkCommand_of_operands supported a b bad),
    issueCommand_of_rejected rest (checkCommand_of_operands supported a b bad)⟩

end Sys2Proof
end

section
/-! SUPPORT. What the outputs show at rest, and the statement about power-on reset (R35, R56, R138). -/

namespace Sys2Proof.Machine

/-- With STATUS IDLE and CAUSE NONE both codes are 0, and no Result is valid (R28, R56). -/
theorem State.outputs_of_idle {s : State} (idle : s.status = .idle) (noCause : s.cause = .none) :
    s.outputs = { status := 0, cause := 0, result := none } := by
  have noResult : s.result = none := s.result_of_not_done (by rw [idle]; decide)
  rw [State.outputs, noResult, idle, noCause]
  rfl

end Sys2Proof.Machine

namespace Sys2Proof

open Machine

/-- Settles O5: reset is an idle state without a cause, and of the other registers the outputs show nothing. -/
theorem resetIsIdle : Obligations.ResetIsIdle :=
  ⟨rfl, rfl, rfl, State.outputs_of_idle rfl rfl⟩

end Sys2Proof
end
